-- ==== Sys2Proof/Word.lean ====
section
/-! DEFINITION. The word types of the SC-26: link bytes, the show clock and language codes. -/

namespace Sys2Proof

/-- A byte of a frame, of a payload or of the cue store. -/
abbrev Byte := BitVec 8

/-- A show-clock reading: microseconds in 48 bits, wrapping (R1). -/
abbrev Time := BitVec 48

/-- A three-letter language code; the code "none" is three zero bytes (R166, R185). -/
abbrev Code := BitVec 24

/-- A set of channels or a channel mask: bit n stands for channel n (R183). -/
abbrev ChannelSet := BitVec 8

end Sys2Proof
end

