-- ==== Sys2Proof/Syntax.lean ====
section
/-! DEFINITION. The commands of the SC-26: one constructor of Instr for each row of spec/opcode_table.json, and the
types of their operands. -/

namespace Sys2Proof

/-- The two ports of the cue link: U faces the desk, D the screens. -/
inductive Port where
  | u
  | d
  deriving DecidableEq, Repr

/-- What reading a unit of the store meets (R115): one bit in error, or two or more; the pattern says which data bits
the store holds inverted (byte i of the unit is bits 8i+7..8i). -/
inductive UnitError where
  | oneBit
  | manyBits (pattern : BitVec 128)
  deriving DecidableEq, Repr

/-- A unit of the store (its number, address / 16) that reads with an error (R115). -/
structure UnitFault where
  place : Nat
  error : UnitError
  deriving DecidableEq, Repr

/-- The moment a command is taken at: the show-clock reading (R1), the condition of the store's units (R115), and how
many more units the operation in flight has read by then, if nothing held it up (R114, log 15). -/
structure Moment where
  clock : Time
  faults : List UnitFault
  reads : Nat
  deriving DecidableEq, Repr

/-- What an interrupted store operation had reached when power failed (R131): the addresses that reached their target,
and whether a protection flag did. -/
structure Interrupt where
  reached : List Nat
  flagReached : Bool
  deriving DecidableEq, Repr

/-- The part of a request that every code shares: the address it came from, its tag and its confirm byte (R164). -/
structure Head where
  source : Byte
  tag : Byte
  confirm : Byte
  deriving DecidableEq, Repr

/-- A cue label as a frame carries it: number and suffix byte, 0 for none (R32, R183). -/
structure Label where
  number : BitVec 16
  suffix : Byte
  deriving DecidableEq, Repr

/-- One pair of a SET_CONFIG list: an item number and the bytes of its value (R185). -/
structure ConfigPair where
  item : BitVec 16
  value : List Byte
  deriving DecidableEq, Repr

/-- A request as its code and parameters spell it (R185). -/
inductive Request where
  | identify
  | readStatus
  | readCounters
  | readConfig
  | setConfig (pairs : List ConfigPair)
  | commitConfig
  | loadAct (act : Byte)
  | start (force : Byte)
  | hold
  | resume
  | stop
  | unload
  | setPointer (label : Label)
  | showMessage (level mask : Byte) (duration : BitVec 16) (text : List Byte)
  | clearMessage (level mask : Byte)
  | readStore (address : BitVec 32) (length : Byte)
  | programStore (address : BitVec 32) (data : List Byte)
  | eraseSector (sector : BitVec 16)
  | verifyAct (act : Byte)
  | checksum (address length : BitVec 32)
  | protectAct (act : Byte)
  | unprotectAct (act : Byte)
  | lockShow
  | readEcc
  | clearEcc
  | census
  | readCensus
  | screenTest (channel : Byte) (count : BitVec 16) (length : Byte) (gap : BitVec 16) (mode : Byte)
  | stopTest
  | restart
  deriving DecidableEq, Repr

/-- The commands: one constructor for each row of the opcode table, in the table's order. -/
inductive Instr where
  | powerUp (straps : BitVec 4) (cut : Interrupt)
  | badFrame (m : Moment) (port : Port) (bytes : List Byte)
  | pos (m : Moment) (dest source seq : Byte) (payload : List Byte)
  | go (m : Moment) (dest source seq : Byte) (payload : List Byte)
  | req (m : Moment) (dest source seq : Byte) (payload : List Byte)
  | foreignKindFrame (m : Moment) (port : Port) (dest source kind seq : Byte) (payload : List Byte)
  | forwardDown (m : Moment) (dest source kind seq : Byte) (payload : List Byte)
  | forwardUp (m : Moment) (dest source kind seq : Byte) (payload : List Byte)
  | answer (m : Moment) (dest source seq : Byte) (payload : List Byte)
  | testEcho (m : Moment) (dest source seq : Byte) (payload : List Byte)
  | dTransmissionComplete (m : Moment)
  | uTransmissionComplete (m : Moment)
  | invalidRequest (m : Moment) (source : Byte) (payload : List Byte)
  | identify (m : Moment) (h : Head)
  | readStatus (m : Moment) (h : Head)
  | readCounters (m : Moment) (h : Head)
  | readConfig (m : Moment) (h : Head)
  | setConfig (m : Moment) (h : Head) (pairs : List ConfigPair)
  | commitConfig (m : Moment) (h : Head)
  | loadAct (m : Moment) (h : Head) (act : Byte)
  | start (m : Moment) (h : Head) (force : Byte)
  | hold (m : Moment) (h : Head)
  | resume (m : Moment) (h : Head)
  | stop (m : Moment) (h : Head)
  | unload (m : Moment) (h : Head)
  | restart (m : Moment) (h : Head)
  | restartTakesEffect
  | setPointer (m : Moment) (h : Head) (label : Label)
  | showMessage (m : Moment) (h : Head) (level mask : Byte) (duration : BitVec 16) (text : List Byte)
  | clearMessage (m : Moment) (h : Head) (level mask : Byte)
  | readStore (m : Moment) (h : Head) (address : BitVec 32) (length : Byte)
  | readStoreServed (m : Moment)
  | programStore (m : Moment) (h : Head) (address : BitVec 32) (data : List Byte)
  | programComplete (m : Moment)
  | eraseSector (m : Moment) (h : Head) (sector : BitVec 16)
  | eraseComplete (m : Moment)
  | verifyAct (m : Moment) (h : Head) (act : Byte)
  | verifyComplete (m : Moment)
  | checksum (m : Moment) (h : Head) (address length : BitVec 32)
  | checksumComplete (m : Moment)
  | protectAct (m : Moment) (h : Head) (act : Byte)
  | unprotectAct (m : Moment) (h : Head) (act : Byte)
  | protectionUpdateComplete (m : Moment)
  | lockShow (m : Moment) (h : Head)
  | readEcc (m : Moment) (h : Head)
  | clearEcc (m : Moment) (h : Head)
  | loadComplete (m : Moment)
  | census (m : Moment) (h : Head)
  | censusWindowExpiry (m : Moment)
  | readCensus (m : Moment) (h : Head)
  | screenTest (m : Moment) (h : Head) (channel : Byte) (count : BitVec 16) (length : Byte) (gap : BitVec 16) (mode : Byte)
  | testGapExpiry (m : Moment)
  | testCompletion (m : Moment)
  | stopTest (m : Moment) (h : Head)
  | silenceDeadlineExpiry (m : Moment)
  | horizonDeadlineExpiry (m : Moment)
  | markDeadlineExpiry (m : Moment)
  | followDeadlineExpiry (m : Moment)
  | watchDeadlineExpiry (m : Moment)
  | readingDeadlineExpiry (m : Moment) (channel : Fin 8)
  | gapDeadlineExpiry (m : Moment) (channel : Fin 8)
  | messageExpiry (m : Moment) (placement : Nat)
  | stagingReadEnd (m : Moment)
  | powerFail (cut : Interrupt)
  deriving DecidableEq, Repr

end Sys2Proof
end

