-- ==== Sys2Proof/Config.lean ====
section
/-! DEFINITION. What is fixed for one part: the capacities of the manual's table, the codes of the part, and the
constants the manual leaves to the part or leaves open (no body: nothing is known of their values). -/

namespace Sys2Proof.Config

/-- Revision of the part, 0 to 255 (R172). DESIGN CHOICE (log 18), safe: a free constant. -/
opaque revision : Byte

/-- Unique number set at manufacture (R172). DESIGN CHOICE (log 18), safe: a free constant. -/
opaque uniqueNumber : BitVec 64

/-- Whether a flag byte that is neither 0 nor 1 reads as set (R183 gives 0 and 1 alone).
DESIGN CHOICE (log 18), safe: a free constant. -/
opaque flagByteSet : Byte → Bool

/-- Vendor code (R185). -/
def vendorCode : Nat := 0x5754

/-- Part code (R185). -/
def partCode : Nat := 0x5C26

/-- Bytes of the cue store (R112, R172). -/
def storeSize : Nat := 2097152

/-- Places of the request FIFO (R162). -/
def requestPlaces : Nat := 4

/-- Places of each passthrough FIFO (R152). -/
def passPlaces : Nat := 8

/-- Places of the notice queue (R171). -/
def noticePlaces : Nat := 32

/-- Places of a channel's pending queue (R79). -/
def pendingPlaces : Nat := 3

/-- Places of the census list (R175). -/
def censusPlaces : Nat := 32

/-- Longest frame payload (R148). -/
def payloadMax : Nat := 240

/-- Highest position in ticks (R2). -/
def positionMax : Nat := 16777215

/-- Shortest and longest beat period in µs (R5, R12). -/
def beatMin : Nat := 150000
def beatMax : Nat := 3000000

end Sys2Proof.Config
end

