-- ==== Sys2Proof/Machine/State.lean ====
section
/-! DEFINITION. The state of the SC-26 as plain data, block by block, with the commands that wait in front of it, and
the machine right after power-up reset. -/

namespace Sys2Proof.Machine

/-! ### Score tracker (R5) -/

/-- Follow states, in the order of R183. -/
inductive FollowState where
  | idle
  | locked
  | coasting
  | held
  | lost
  deriving DecidableEq, Repr

/-- Causes of a FOLLOW_STATE notice (R28), in the order of R183. -/
inductive FollowCause where
  | firstReport
  | progress
  | horizon
  | hold
  | release
  | jump
  | silence
  | gap
  | reverse
  | rate
  | relock
  | reset
  deriving DecidableEq, Repr

/-- The loss-cause latch: a set of SILENCE, GAP, REVERSE, RATE (R5, R26). -/
structure CauseSet where
  silence : Bool
  gap : Bool
  reverse : Bool
  rate : Bool
  deriving DecidableEq, Repr

/-- What the score tracker holds (R5). -/
structure Tracker where
  follow : FollowState
  beat : Nat
  anchorPos : Nat
  anchorTime : Time
  basePos : Nat
  baseTime : Time
  settle : Bool
  lastSeq : Byte
  rejects : Nat
  candidate : Bool
  anySeq : Bool
  latch : CauseSet
  silence : Option Time
  horizon : Option Time
  deriving DecidableEq, Repr

/-- A position report as the tracker takes it: position, flags, header sequence number, arrival time (section 1.2). -/
structure Report where
  pos : Nat
  hold : Bool
  jump : Bool
  seq : Byte
  time : Time
  deriving DecidableEq, Repr

/-- How the tracker treated a report (R27). -/
inductive ReportKind where
  | normal
  | hold
  | holdEnd
  | jump
  deriving DecidableEq, Repr

/-- The event of a report, handed to the firing unit (R27). -/
structure ReportEvent where
  kind : ReportKind
  oldPos : Nat
  newPos : Nat
  newTime : Time
  before : FollowState
  after : FollowState
  reseek : Option Nat
  settleCleared : Bool
  deriving DecidableEq, Repr

/-- The tracker's answer to when a score position is reached (R16). -/
inductive Arrival where
  | reachedAt (time : Time)
  | already
  | noTime
  deriving DecidableEq, Repr

/-! ### Active cue table and staging (R29, R39) -/

/-- Trigger kinds with the parameter each uses (R30): beats for COUNT, milliseconds for FOLLOW. -/
inductive Trigger where
  | manual
  | mark
  | count (beats : Nat)
  | follow (delay : Nat)
  deriving DecidableEq, Repr

/-- A language slot of a cue: ABSENT, TEXT with the store address of its text entry, or BLANK (R30, R34). -/
inductive Slot where
  | absent
  | text (address : Nat)
  | blank
  deriving DecidableEq, Repr

/-- A cue record (R30). -/
structure Cue where
  label : Label
  trigger : Trigger
  mark : Nat
  lead : Nat
  slots : List Slot
  deriving DecidableEq, Repr

/-- An entry of the language map (R36). -/
inductive MapEntry where
  | none
  | unserved
  | served (lang : Nat)
  deriving DecidableEq, Repr

/-- The active cue table (R29); the cue count and image language count are the lengths of its lists. -/
structure CueTable where
  cues : List Cue
  langs : List Code
  beat : Option Nat
  map : Vector MapEntry 6
  deriving DecidableEq, Repr

/-- A title's text (R34). -/
structure TitleText where
  bytes : List Byte
  chars : Nat
  lines : Nat
  deriving DecidableEq, Repr

/-- A staging key: cue index and image language index (R39). -/
structure Key where
  cue : Nat
  lang : Nat
  deriving DecidableEq, Repr

/-- What a staging entry holds: READY with its text, or FAILED (R39). -/
inductive Staged where
  | ready (text : TitleText)
  | failed
  deriving DecidableEq, Repr

/-- An entry of the staging set (R39). -/
structure StagedEntry where
  key : Key
  entry : Staged
  deriving DecidableEq, Repr

/-- An entry of the awaited list: a key and the channels that hold an item awaiting it (R46). -/
structure Awaited where
  key : Key
  channels : ChannelSet
  deriving DecidableEq, Repr

/-- The staging read outstanding (R40), stale after a flush (R44). -/
structure StagingRead where
  key : Key
  address : Nat
  stale : Bool
  deriving DecidableEq, Repr

/-- What the staging logic holds (R39, R40, R46). -/
structure Staging where
  entries : List StagedEntry
  awaited : List Awaited
  reading : Option StagingRead
  deriving DecidableEq, Repr

/-! ### Firing unit (R49) -/

/-- The armed trigger of the pointer cue (R49). The mark `kept` of a FOLLOW deadline says that RESUME armed it from a
paused remainder, so that later armings leave it (R56). -/
inductive Armed where
  | none
  | mark (deadline : Time)
  | count (beats : Nat)
  | follow (deadline : Time) (kept : Bool)
  | paused (remainder : Nat)
  deriving DecidableEq, Repr

/-- The overrun watch: the watched MARK cue and its deadline, if the tracker gives one (R57). -/
structure Watch where
  cue : Nat
  deadline : Option Time
  deriving DecidableEq, Repr

/-- What the firing unit holds (R49). -/
structure Firing where
  pointer : Nat
  last : Option Nat
  previous : Option Time
  trigger : Armed
  watch : Option Watch
  deriving DecidableEq, Repr

/-- Causes of a fire, in the order of R183 (R59). -/
inductive FireCause where
  | go
  | goSkip
  | back
  | mark
  | count
  | follow
  | overrun
  | resync
  deriving DecidableEq, Repr

/-- Reasons of GO_IGNORED, in the order of R183 (R66). -/
inductive GoReason where
  | state
  | atEnd
  | late
  | unknown
  | range
  deriving DecidableEq, Repr

/-! ### Channels (R73) -/

/-- Item kinds (R60). -/
inductive ItemKind where
  | title
  | blank
  deriving DecidableEq, Repr

/-- A title item (R60, R76). `lang` is the image language its text is fetched in, so that (cue, lang) is its key (R45).
A TITLE item without a text is awaiting. -/
structure Item where
  cue : Nat
  label : Label
  kind : ItemKind
  lang : Nat
  text : Option TitleText
  fired : Time
  resync : Bool
  late : Bool
  deriving DecidableEq, Repr

/-- Title-layer states, in the order of R183 (R77). -/
inductive Layer where
  | off
  | blank
  | gap
  | showing
  | settled
  deriving DecidableEq, Repr

/-- Overlay levels 1 SLATE, 2 HOUSE, 3 ALERT (R98). -/
inductive Level where
  | slate
  | house
  | alert
  deriving DecidableEq, Repr

/-- What a channel last decided its screen should show (R90). -/
inductive Content where
  | dark
  | blank
  | title (label : Label) (bytes : List Byte) (lines : Nat)
  | message (level : Level) (bytes : List Byte) (lines : Nat)
  deriving DecidableEq, Repr

/-- Shown-at time and full minimum in ms of the current title (R78). -/
structure Shown where
  at_ : Time
  minimum : Nat
  deriving DecidableEq, Repr

/-- Present flag of a channel (R176). -/
inductive Present where
  | unknown
  | found
  | missing
  deriving DecidableEq, Repr

/-- What a channel holds (R73). -/
structure Channel where
  layer : Layer
  current : Option Item
  next : Option Item
  queue : List Item
  reading : Option Time
  shown : Option Shown
  gap : Option Time
  content : Content
  number : Byte
  slipMax : Nat
  present : Present
  deriving DecidableEq, Repr

/-! ### Overlay unit (R98) -/

/-- A placement: one SHOW_MESSAGE with a message still standing (R98). The message slot (channel, level) refers to the
placement of that level whose set holds the channel. -/
structure Placement where
  tag : Byte
  level : Level
  bytes : List Byte
  lines : Nat
  placed : Time
  expiry : Option Time
  channels : ChannelSet
  deriving DecidableEq, Repr

/-! ### Cue store (R113) -/

/-- The operation in flight with what its request named (R113, R118). -/
inductive StoreOp where
  | program (address : Nat) (data : List Byte)
  | erase (sector : Nat)
  | verify (act : Nat)
  | checksum (address length : Nat)
  | protect (act : Nat)
  | unprotect (act : Nat)
  | load (act : Nat)
  deriving DecidableEq, Repr

/-- An operation in flight and the tag of the request that began it (R113). -/
structure Flight where
  op : StoreOp
  tag : Byte
  deriving DecidableEq, Repr

/-- A read in the read queue (R114): the outstanding staging read, or the read of the READ_STORE in handling. -/
inductive ReadJob where
  | staging
  | readStore (address length : Nat)
  deriving DecidableEq, Repr

/-- Readers named by the ECC address trap, in the order of R183 (R115). -/
inductive Reader where
  | staging
  | readStore
  | load
  | verify
  | checksum
  | protection
  deriving DecidableEq, Repr

/-- The ECC address trap (R115). -/
structure Trap where
  address : Nat
  reader : Reader
  deriving DecidableEq, Repr

/-- The loaded region: first sector and sector count (R129). -/
structure Region where
  first : Nat
  count : Nat
  deriving DecidableEq, Repr

/-- The bytes of the cue store that hold a value, as (address, byte) in strictly rising address order; a byte not
listed is ERASED (R112). -/
abbrev Cells := List Host.Cell

/-- What the store and its controller hold (R112, R113). `faults` is the store's own condition (R115); `reads` is how
many units the verify, checksum or load in flight has read (R114, log 15). -/
structure Store where
  cells : Cells
  protection : BitVec 8
  flight : Option Flight
  suspended : Bool
  queue : List ReadJob
  region : Option Region
  lock : Bool
  trap : Option Trap
  faults : List UnitFault
  reads : Nat
  deriving DecidableEq, Repr

/-! ### Show controller (R133) -/

/-- Show states, in the order of R183. -/
inductive ShowState where
  | dark
  | preset
  | run
  | hold
  deriving DecidableEq, Repr

/-- Causes of SHOW_STATE, in the order of R183 (R134). -/
inductive ShowCause where
  | loadAct
  | start
  | hold
  | resume
  | go
  | stop
  | unload
  | restart
  deriving DecidableEq, Repr

/-- What the show controller holds (R133). -/
structure Control where
  show_ : ShowState
  act : Option Nat
  loading : Bool
  deriving DecidableEq, Repr

/-! ### Link unit (R146) -/

/-- A frame of the cue link (R182); its payload length and check follow from the rest (R188). -/
structure Frame where
  dest : Byte
  source : Byte
  kind : Byte
  seq : Byte
  payload : List Byte
  deriving DecidableEq, Repr

/-- Caption kinds, in the order of R183. -/
inductive CaptionKind where
  | shows
  | blank
  | dark
  deriving DecidableEq, Repr

/-- Caption sources, in the order of R183. -/
inductive CaptionSource where
  | title
  | slate
  | house
  | alert
  deriving DecidableEq, Repr

/-- A caption as a channel wrote it (R92), with its alert mark (R154). -/
structure Caption where
  dest : Byte
  channel : Fin 8
  number : Byte
  kind : CaptionKind
  source : Option CaptionSource
  label : Option Label
  lines : Nat
  bytes : List Byte
  alert : Bool
  deriving DecidableEq, Repr

/-- A frame of a tool (R155): a PROBE with its census id, or frame n of a test with its channel and length (R178).
`live` says that the tool that offered it still runs. -/
inductive ToolFrame where
  | probe (id : Byte) (live : Bool)
  | test (channel : Fin 8) (n length : Nat) (live : Bool)
  deriving DecidableEq, Repr

/-- Result codes of a response, in the order of their codes 0 to 11 (R183). -/
inductive Result where
  | ok
  | accepted
  | busy
  | state
  | range
  | protected_
  | notErased
  | locked
  | invalid
  | confirm
  | notValid
  | missing
  deriving DecidableEq, Repr

/-- A response (R164): the address it goes to, code and tag as received, result, data. -/
structure Response where
  dest : Byte
  code : Byte
  tag : Byte
  result : Result
  data : List Byte
  deriving DecidableEq, Repr

/-- Sources of the D arbiter (R156). -/
inductive SourceD where
  | captions
  | tools
  | downFifo
  deriving DecidableEq, Repr

/-- Sources that alternate in the U arbiter (R157). -/
inductive SourceU where
  | notices
  | upFifo
  deriving DecidableEq, Repr

/-- The frame in transmission on port D, with the tool frame it was made from, if any (R155). -/
structure SendingD where
  frame : Frame
  tool : Option ToolFrame
  deriving DecidableEq, Repr

/-- What the link unit holds (R146). -/
structure Link where
  address : Byte
  downFifo : List Frame
  upFifo : List Frame
  slots : Vector (Option Caption) 8
  tool : Option ToolFrame
  toolWaiting : Option ToolFrame
  response : Option Response
  dNext : SourceD
  dLast : Fin 8
  uNext : SourceU
  seqD : Byte
  seqU : Byte
  coalesced : BitVec 16
  sendingD : Option SendingD
  sendingU : Option Frame
  deriving DecidableEq, Repr

/-! ### Management block (R161) -/

/-- The counters of the counter set (R170), in the order of R183. TEST_ERRORS, the last name of that list, is a test's
error count and not of the set (R179). -/
inductive CounterName where
  | uCheck
  | dCheck
  | badKind
  | uPassDrop
  | dPassDrop
  | reqDrop
  | seqGap
  | rateReject
  | lateGo
  | overrunCues
  | skippedTitles
  | textLate
  | eccCorrected
  | eccFailed
  deriving DecidableEq, Repr

/-- Operations named in OP_DONE and in status, in the order of R183. -/
inductive OpName where
  | none
  | program
  | erase
  | verify
  | checksum
  | protect
  | unprotect
  | load
  | census
  | test
  deriving DecidableEq, Repr

/-- Results of OP_DONE, in the order of R183. -/
inductive DoneResult where
  | ok
  | match_
  | mismatch
  | ecc
  | noAct
  | corrupt
  | check
  | pass
  | fail
  | complete
  | stopped
  | disabled
  deriving DecidableEq, Repr

/-- An index with its label; the label is absent where the index names no cue (R49: p may equal the count). -/
structure Place where
  index : Nat
  label : Option Label
  deriving DecidableEq, Repr

/-- A notice with the contents its rule gives (R171). Times are in ms. -/
inductive Notice where
  | cueFired (label : Label) (index : Nat) (cause : FireCause) (time projected : Nat)
  | titleSlip (channel : Fin 8) (index : Nat) (label : Label) (kind : ItemKind) (resync : Bool) (fired taken slip : Nat)
  | titleSkipped (channel : Fin 8) (index : Nat) (label : Label) (kind : ItemKind) (fired : Nat) (awaiting : Bool)
  | goIgnored (reason : GoReason) (target : Label) (back : Bool) (show_ : ShowState) (pointer : Place) (last : Option Place)
      (time : Nat)
  | overrun (number : Nat) (first last fired : Place)
  | followState (previous new : FollowState) (cause : FollowCause) (beat anchor time : Nat)
  | showState (previous new : ShowState) (cause : ShowCause) (tag : Option Byte) (act : Option Nat) (pointer : Place)
      (last : Option Place) (time : Nat)
  | actEnd (act : Option Nat) (label : Label) (index time : Nat)
  | opDone (op : OpName) (tag : Byte) (result : DoneResult) (data : List Byte)
  | counterHalf (counter : CounterName) (time : Nat)
  | testErrors (channel : Fin 8) (time : Nat)
  | storeError (cue : Nat) (label : Label) (lang address : Nat)
  | messageExpired (level : Level) (tag : Byte) (channels : ChannelSet) (placed expired : Nat)
  deriving DecidableEq, Repr

/-- The notice kinds, in the order R171 lists them (codes 1 to 12). -/
inductive NoticeKind where
  | cueFired
  | titleSlip
  | titleSkipped
  | goIgnored
  | overrun
  | followState
  | showState
  | actEnd
  | opDone
  | counterHalf
  | storeError
  | messageExpired
  deriving DecidableEq, Repr

/-- A notice in the queue with the discarded flag it carries (R171). -/
structure QueuedNotice where
  discarded : Bool
  notice : Notice
  deriving DecidableEq, Repr

/-- A request in the FIFO: its source address and payload (R162). -/
structure QueuedRequest where
  source : Byte
  payload : List Byte
  deriving DecidableEq, Repr

/-- The request in handling: where it came from, its code and tag (R163). -/
structure Handling where
  source : Byte
  code : Byte
  tag : Byte
  deriving DecidableEq, Repr

/-- How far an accepted RESTART has come (R141, R160): its response waits in the slot, is in transmission, has been
sent. -/
inductive RestartPhase where
  | none
  | waiting
  | sending
  | sent
  deriving DecidableEq, Repr

/-- What the management block holds besides configuration and counters (R161). `halves` gathers the COUNTER_HALF
notices of the running step, offered at its end (R170). -/
structure Management where
  fifo : List QueuedRequest
  handling : Option Handling
  valid : Bool
  notices : List QueuedNotice
  discarded : Bool
  restart : RestartPhase
  halves : List Notice
  deriving DecidableEq, Repr

/-- Configuration of a channel (R74). -/
structure ChannelConfig where
  enabled : Bool
  address : Byte
  language : Fin 6
  lines : Nat
  muted : Bool
  deriving DecidableEq, Repr

/-- Configuration of a language (R75, R166). -/
structure LanguageConfig where
  code : Option Code
  base : Nat
  perChar : Nat
  cap : Nat
  gap : Nat
  catchUp : Nat
  deriving DecidableEq, Repr

/-- Configuration of the engine (R6, R50, R75, R166). -/
structure EngineConfig where
  slip : Nat
  smoothing : Nat
  horizon : Nat
  silenceLimit : Nat
  gapLimit : Nat
  rateWindow : Nat
  onSilence : Bool
  onGap : Bool
  onReverse : Bool
  onRate : Bool
  watchOn : Bool
  watchWindow : Nat
  goReleases : Bool
  censusWindow : Nat
  notices : Vector Bool 12
  deriving DecidableEq, Repr

/-- The configuration (R166). -/
structure Configuration where
  channels : Vector ChannelConfig 8
  languages : Vector LanguageConfig 6
  engine : EngineConfig
  deriving DecidableEq, Repr

/-! ### Tools (R173) -/

/-- Error modes of a screen test (R178). -/
inductive ErrorMode where
  | single
  | continuous
  deriving DecidableEq, Repr

/-- The test record (R173), with the deadlines of its gap (R178) and of its completion (R180). -/
structure TestRecord where
  tag : Byte
  channel : Fin 8
  count : Nat
  length : Nat
  gap : Nat
  mode : ErrorMode
  sent : Nat
  expected : Nat
  good : Nat
  bad : Nat
  missed : Nat
  errors : Nat
  gapDeadline : Option Time
  endDeadline : Option Time
  deriving DecidableEq, Repr

/-- The tool running: none, a census with its tag and window deadline (R174), or a test (R178). -/
inductive Tool where
  | none
  | census (tag : Byte) (deadline : Time)
  | test (record : TestRecord)
  deriving DecidableEq, Repr

/-- An entry of the census list (R175). -/
structure CensusEntry where
  address : Byte
  hop : Byte
  conflict : Bool
  deriving DecidableEq, Repr

/-- Last census result, in the order of R183. -/
inductive CensusResult where
  | none
  | pass
  | fail
  deriving DecidableEq, Repr

/-- What the tools block holds (R173). -/
structure Tools where
  running : Tool
  id : Byte
  list : List CensusEntry
  overflow : Bool
  result : CensusResult
  deriving DecidableEq, Repr

/-! ### The whole engine -/

/-- The state of the SC-26: the commands that wait, power, pins and clock, and every block. -/
structure State where
  pending : List Instr
  powered : Bool
  straps : BitVec 4
  clock : Time
  tracker : Tracker
  table : CueTable
  staging : Staging
  firing : Firing
  channels : Vector Channel 8
  placements : List Placement
  store : Store
  control : Control
  link : Link
  management : Management
  counters : Vector Byte 14
  config : Configuration
  tools : Tools
  deriving DecidableEq, Repr

/-- Reasons a step could stop with a fault. There are none: no rule of the manual stops the engine, so no command
faults (a bad frame, a loss or an uncorrectable unit is counted and reported). -/
inductive Fault where
  deriving DecidableEq, Repr

/-- Reasons a command could be refused. -/
inductive Refusal where
  /-- Raised by exec for a row of the table that has no meaning yet; safe, since nothing is claimed of it. No arm
  raises it now. -/
  | notModelled (mnemonic : String)
  deriving DecidableEq, Repr

/-! ### Replacing one block -/

namespace State

def withPending (s : State) (x : List Instr) : State := { s with pending := x }
def withPowered (s : State) (x : Bool) : State := { s with powered := x }
def withStraps (s : State) (x : BitVec 4) : State := { s with straps := x }
def withClock (s : State) (x : Time) : State := { s with clock := x }
def withTracker (s : State) (x : Tracker) : State := { s with tracker := x }
def withTable (s : State) (x : CueTable) : State := { s with table := x }
def withStaging (s : State) (x : Staging) : State := { s with staging := x }
def withFiring (s : State) (x : Firing) : State := { s with firing := x }
def withChannels (s : State) (x : Vector Channel 8) : State := { s with channels := x }
def withPlacements (s : State) (x : List Placement) : State := { s with placements := x }
def withStore (s : State) (x : Store) : State := { s with store := x }
def withControl (s : State) (x : Control) : State := { s with control := x }
def withLink (s : State) (x : Link) : State := { s with link := x }
def withManagement (s : State) (x : Management) : State := { s with management := x }
def withCounters (s : State) (x : Vector Byte 14) : State := { s with counters := x }
def withConfig (s : State) (x : Configuration) : State := { s with config := x }
def withTools (s : State) (x : Tools) : State := { s with tools := x }

/-- One channel replaced. -/
def withChannel (s : State) (n : Fin 8) (x : Channel) : State := { s with channels := s.channels.set n x }

end State

/-! ### Power-up values -/

/-- Tracker after power-up and RESTART (R5). -/
def Tracker.initial : Tracker :=
  { follow := .idle, beat := 1000000, anchorPos := 0, anchorTime := 0, basePos := 0, baseTime := 0, settle := false,
    lastSeq := 0, rejects := 0, candidate := false, anySeq := true, latch := ⟨false, false, false, false⟩,
    silence := none, horizon := none }

/-- The empty cue table, every map entry NONE (R29). -/
def CueTable.empty : CueTable := { cues := [], langs := [], beat := none, map := Vector.replicate 6 .none }

/-- Staging after power-up (R48). -/
def Staging.initial : Staging := { entries := [], awaited := [], reading := none }

/-- Firing unit after power-up, RESTART and UNLOAD (R49). -/
def Firing.initial : Firing := { pointer := 0, last := none, previous := none, trigger := .none, watch := none }

/-- A channel after power-up and RESTART (R73). -/
def Channel.initial : Channel :=
  { layer := .off, current := none, next := none, queue := [], reading := none, shown := none, gap := none,
    content := .dark, number := 0, slipMax := 0, present := .unknown }

/-- Store controller after power-up, over the given nonvolatile contents (R113). -/
def Store.initial (cells : Cells) (protection : BitVec 8) : Store :=
  { cells := cells, protection := protection, flight := none, suspended := false, queue := [], region := none,
    lock := false, trap := none, faults := [], reads := 0 }

/-- Show controller after power-up and RESTART (R133). -/
def Control.initial : Control := { show_ := .dark, act := none, loading := false }

/-- Link unit after power-up, at the given address (R146). -/
def Link.initial (address : Byte) : Link :=
  { address := address, downFifo := [], upFifo := [], slots := Vector.replicate 8 none, tool := none,
    toolWaiting := none, response := none, dNext := .captions, dLast := 7, uNext := .notices, seqD := 0, seqU := 0,
    coalesced := 0, sendingD := none, sendingU := none }

/-- Management block after power-up (R161). -/
def Management.initial : Management :=
  { fifo := [], handling := none, valid := false, notices := [], discarded := false, restart := .none, halves := [] }

/-- Default configuration of a channel (R74). -/
def ChannelConfig.initial (n : Fin 8) : ChannelConfig :=
  { enabled := false, address := BitVec.ofNat 8 (1 + n), language := 0, lines := 2, muted := false }

/-- Default configuration of a language (R75, R166). -/
def LanguageConfig.initial : LanguageConfig :=
  { code := none, base := 800, perChar := 60, cap := 7000, gap := 150, catchUp := 60 }

/-- Default configuration (R6, R50, R75, R166). -/
def Configuration.initial : Configuration :=
  { channels := Vector.ofFn ChannelConfig.initial
    languages := Vector.replicate 6 LanguageConfig.initial
    engine :=
      { slip := 500, smoothing := 4, horizon := 4, silenceLimit := 1500, gapLimit := 4, rateWindow := 40,
        onSilence := true, onGap := true, onReverse := true, onRate := true, watchOn := true, watchWindow := 8,
        goReleases := false, censusWindow := 100, notices := Vector.replicate 12 true } }

/-- Tools after power-up (R173). -/
def Tools.initial : Tools := { running := .none, id := 0, list := [], overflow := false, result := .none }

/-- The machine right after power-up reset with the given straps and nonvolatile contents (R142, R147). -/
def State.poweredUp (straps : BitVec 4) (cells : Cells) (protection : BitVec 8) : State :=
  { pending := []
    powered := true
    straps := straps
    clock := 0
    tracker := Tracker.initial
    table := CueTable.empty
    staging := Staging.initial
    firing := Firing.initial
    channels := Vector.replicate 8 Channel.initial
    placements := []
    store := Store.initial cells protection
    control := Control.initial
    link := Link.initial (224 + straps.setWidth 8)
    management := Management.initial
    counters := Vector.replicate 14 0
    config := Configuration.initial
    tools := Tools.initial }

/-- The machine right after reset. The straps, the store's contents and the protection table have no reset value in
the manual. DESIGN CHOICE (log 12), unsafe: strap value 0, every byte ERASED, no act protected. -/
def State.reset : State := State.poweredUp 0 [] 0

end Sys2Proof.Machine
end

