-- ==== Sys2Proof/Machine/Ops.lean ====
section
/-! DEFINITION. The named operations on times, bytes, check codes, the cells of the cue store and channel sets. -/

namespace Sys2Proof.Machine

/-! ### Times (R1) -/

/-- The deadline is at or before now, by difference modulo 2^48 (R1). DEDUCED (log 3), unsafe: a difference below 2^47
counts as passed. -/
def due (deadline now : Time) : Bool := decide ((now - deadline).toNat < 2 ^ 47)

/-- The deadline is armed and at or before now. -/
def isDue (deadline : Option Time) (now : Time) : Bool :=
  match deadline with
  | none => false
  | some d => due d now

/-- The deadline is armed and still ahead of now. -/
def isAhead (deadline : Option Time) (now : Time) : Bool :=
  match deadline with
  | none => false
  | some d => !due d now

/-- A time some microseconds later. -/
def later (t : Time) (us : Nat) : Time := t + BitVec.ofNat 48 us

/-- A time some microseconds earlier. -/
def sooner (t : Time) (us : Nat) : Time := t - BitVec.ofNat 48 us

/-- Microseconds from one reading to a later one, modulo 2^48. -/
def elapsed (since now : Time) : Nat := (now - since).toNat

/-- The earlier of two times. -/
def earlier (a b : Time) : Time := if due a b then a else b

/-- A time in milliseconds, truncated (R1). -/
def millis (t : Time) : Nat := t.toNat / 1000

/-- Quotient rounded up (R3). -/
def ceilDiv (a b : Nat) : Nat := (a + b - 1) / b

/-- Beats of a position (R2). -/
def beats (ticks : Nat) : Nat := ticks / 480

/-! ### Bytes (R4) -/

/-- k bytes of a number, most significant first (R4, R181); higher digits are lost. -/
def be : Nat → Nat → List Byte
  | 0, _ => []
  | k + 1, v => BitVec.ofNat 8 (v / 256 ^ k) :: be k v

/-- The number some bytes spell, most significant first (R4). -/
def ofBe (bytes : List Byte) : Nat := bytes.foldl (fun a b => a * 256 + b.toNat) 0

/-- The bytes from an offset, k of them, with 0 in place of each missing byte (R186). -/
def field (bytes : List Byte) (offset k : Nat) : List Byte :=
  (List.range k).map (fun i => bytes.getD (offset + i) 0)

/-- The number in a field of k bytes (R186). -/
def fieldNat (bytes : List Byte) (offset k : Nat) : Nat := ofBe (field bytes offset k)

/-- The one byte of a field (R186). -/
def fieldByte (bytes : List Byte) (offset : Nat) : Byte := bytes.getD offset 0

/-- Yes or no as a byte (R183). -/
def yes (b : Bool) : List Byte := [if b then 1 else 0]

/-- An item that may be absent: a presence byte, then the item if present (R184). -/
def optionally {α : Type} (encode : α → List Byte) : Option α → List Byte
  | none => [0]
  | some a => 1 :: encode a

/-- A flag byte read as yes or no (R183); any other value reads as a free constant. -/
def flagByte (b : Byte) : Bool :=
  if b = 0 then false else if b = 1 then true else Config.flagByteSet b

/-! ### Check codes (R188) -/

/-- One shift of the CRC-16 register. -/
def crc16Shift (r : BitVec 16) : BitVec 16 :=
  if r.msb then (r <<< 1) ^^^ 0x1021 else r <<< 1

/-- A byte into the CRC-16 register. -/
def crc16Byte (r : BitVec 16) (b : Byte) : BitVec 16 :=
  Nat.repeat crc16Shift 8 (r ^^^ (b.setWidth 16 <<< 8))

/-- CRC-16 of some bytes (R188). -/
def crc16 (bytes : List Byte) : BitVec 16 := bytes.foldl crc16Byte 0xFFFF

/-- One shift of the CRC-32 register. -/
def crc32Shift (r : BitVec 32) : BitVec 32 :=
  if r.getLsbD 0 then (r >>> 1) ^^^ 0xEDB88320 else r >>> 1

/-- A byte into the CRC-32 register. -/
def crc32Byte (r : BitVec 32) (b : Byte) : BitVec 32 :=
  Nat.repeat crc32Shift 8 (r ^^^ b.setWidth 32)

/-- CRC-32 of some bytes (R188). -/
def crc32 (bytes : List Byte) : BitVec 32 := bytes.foldl crc32Byte 0xFFFFFFFF ^^^ 0xFFFFFFFF

/-! ### Cells of the cue store (R112) -/

/-- The value a byte holds, or none when it is ERASED. -/
def Cells.get? : Cells → Nat → Option Byte
  | [], _ => none
  | c :: rest, a => if c.1 = a then some c.2 else Cells.get? rest a

/-- The byte as a value: ERASED reads as 0xFF (R112). -/
def Cells.value (cells : Cells) (a : Nat) : Byte := (cells.get? a).getD 0xFF

/-- Give a value to one byte, keeping the addresses strictly rising. -/
def Cells.put : Cells → Nat → Byte → Cells
  | [], a, b => [(a, b)]
  | c :: rest, a, b =>
    if a < c.1 then (a, b) :: c :: rest
    else if a = c.1 then (a, b) :: rest
    else c :: Cells.put rest a b

/-- Give values to the bytes from an address on (R119). -/
def Cells.program : Cells → Nat → List Byte → Cells
  | cells, _, [] => cells
  | cells, a, b :: rest => Cells.program (cells.put a b) (a + 1) rest

/-- Give values to those bytes of a run whose addresses are listed (R131, a program that power cut short). -/
def Cells.programSome : Cells → Nat → List Byte → List Nat → Cells
  | cells, _, [], _ => cells
  | cells, a, b :: rest, reached =>
    Cells.programSome (if reached.contains a then cells.put a b else cells) (a + 1) rest reached

/-- Make every byte of a sector ERASED (R120). -/
def Cells.eraseSector (cells : Cells) (sector : Nat) : Cells := cells.filter (fun c => c.1 / 4096 ≠ sector)

/-- Make the listed bytes of a sector ERASED (R131, an erase that power cut short). -/
def Cells.eraseSome (cells : Cells) (sector : Nat) (reached : List Nat) : Cells :=
  cells.filter (fun c => c.1 / 4096 ≠ sector || !reached.contains c.1)

/-- The values of a run of bytes (R112). -/
def Cells.run (cells : Cells) (a len : Nat) : List Byte := (List.range len).map (fun i => cells.value (a + i))

/-- Whether every byte of a run is ERASED (R119). -/
def Cells.runErased (cells : Cells) (a len : Nat) : Bool := (List.range len).all (fun i => (cells.get? (a + i)).isNone)

/-- Whether every byte of a unit is ERASED, so that it carries no code (R112). -/
def Cells.unitErased (cells : Cells) (unit : Nat) : Bool := cells.all (fun c => c.1 / 16 ≠ unit)

/-- The one form of the cells: addresses strictly rising, every one inside the store. -/
def Cells.wf : Cells → Bool
  | [] => true
  | [c] => decide (c.1 < Config.storeSize)
  | c :: d :: rest => decide (c.1 < d.1) && Cells.wf (d :: rest)

/-! ### Units (R114, R115) -/

/-- The units a run of bytes touches, lowest first (R114). -/
def unitsOf (address length : Nat) : List Nat :=
  if length = 0 then [] else List.range' (address / 16) ((address + length - 1) / 16 - address / 16 + 1)

/-- What reading a unit meets (R115); a wholly ERASED unit is read without error (R112). -/
def Store.unitError (st : Store) (unit : Nat) : Option UnitError :=
  if st.cells.unitErased unit then none
  else (st.faults.find? (fun f => f.place = unit)).map (·.error)

/-- Whether reading a unit fails (R115). -/
def Store.unitFails (st : Store) (unit : Nat) : Bool :=
  match st.unitError unit with
  | some (.manyBits _) => true
  | _ => false

/-- Whether reading a unit corrects a bit (R115). -/
def Store.unitCorrects (st : Store) (unit : Nat) : Bool :=
  match st.unitError unit with
  | some .oneBit => true
  | _ => false

/-- A byte as a READ_STORE returns it: 0xFF where ERASED (R112), else corrected, or uncorrected where its unit fails
(R116). -/
def Store.returned (st : Store) (a : Nat) : Byte :=
  match st.cells.get? a, st.unitError (a / 16) with
  | none, _ => 0xFF
  | some b, some (.manyBits pattern) => b ^^^ pattern.extractLsb' (8 * (a % 16)) 8
  | some b, _ => b

/-- The units that are read when reading stops at the first that fails (R123, R124, R126). -/
def Store.untilFailure (st : Store) : List Nat → List Nat
  | [] => []
  | u :: rest => if st.unitFails u then [u] else u :: st.untilFailure rest

/-! ### Channels and channel sets (R183) -/

/-- The eight channels in channel order. -/
def allChannels : List (Fin 8) := [0, 1, 2, 3, 4, 5, 6, 7]

/-- Do something for each channel in channel order. -/
def forChannels (f : Fin 8 → State → State) (s : State) : State := allChannels.foldl (fun s n => f n s) s

/-- Whether a set holds a channel (R183). -/
def setHas (set : ChannelSet) (n : Fin 8) : Bool := set.getLsbD n

/-- The set of channels for which a condition holds. -/
def channelsWhere (p : Fin 8 → Bool) : ChannelSet :=
  allChannels.foldl (fun set n => if p n then set ||| (1#8 <<< n.val) else set) 0

/-- A set without one channel. -/
def setWithout (set : ChannelSet) (n : Fin 8) : ChannelSet := set &&& ~~~(1#8 <<< n.val)

/-- A set with one channel more. -/
def setWith (set : ChannelSet) (n : Fin 8) : ChannelSet := set ||| (1#8 <<< n.val)

/-- The configuration of a channel's language (R75). -/
def State.languageOf (s : State) (n : Fin 8) : LanguageConfig := s.config.languages[s.config.channels[n].language]

end Sys2Proof.Machine
end

