-- ==== Sys2Proof/Machine/Operands.lean ====
section
/-! DEFINITION. Reading what arrives and what a request carries: frames (R148, R182), payload fields (R184, R186),
configuration items (R166, R185), and requests (R164, R185) with their encoding. -/

namespace Sys2Proof.Machine

/-! ### Frames (R148, R182) -/

/-- Kind codes (R182). -/
def kindPos : Byte := 0x10
def kindGo : Byte := 0x11
def kindReq : Byte := 0x20
def kindResp : Byte := 0x21
def kindNote : Byte := 0x22
def kindCapt : Byte := 0x30
def kindProbe : Byte := 0x31
def kindAnswer : Byte := 0x32
def kindTest : Byte := 0x33

/-- Header and payload of a frame, the bytes its check is formed over (R182). -/
def Frame.body (f : Frame) : List Byte :=
  [f.dest, f.source, f.kind, f.seq, BitVec.ofNat 8 f.payload.length] ++ f.payload

/-- The bytes of a frame on the link (R182, R188). -/
def Frame.bytes (f : Frame) : List Byte := f.body ++ be 2 (crc16 f.body).toNat

/-- The frame some received bytes make, or none when any check of R148 fails. -/
def parseFrame : List Byte → Option Frame
  | dest :: source :: kind :: seq :: len :: rest =>
    let f : Frame := { dest, source, kind, seq, payload := rest.take len.toNat }
    if len.toNat ≤ Config.payloadMax ∧ rest.length = len.toNat + 2 ∧
        rest.drop len.toNat = be 2 (crc16 f.body).toNat
    then some f else none
  | _ => none

/-! ### Payloads of taken frames (R184, R186) -/

/-- The report a POS payload carries (R184, R186). -/
def reportOf (seq : Byte) (payload : List Byte) (time : Time) : Report :=
  { pos := fieldNat payload 0 3
    hold := (fieldByte payload 3).getLsbD 0
    jump := (fieldByte payload 3).getLsbD 1
    seq := seq
    time := time }

/-- The label at an offset of a payload (R183, R186). -/
def labelAt (payload : List Byte) (offset : Nat) : Label :=
  { number := BitVec.ofNat 16 (fieldNat payload offset 2), suffix := fieldByte payload (offset + 2) }

/-! ### Configuration items (R166, R185) -/

/-- Items of a channel, numbered from 1 in the order of R166. -/
inductive ChannelItem where
  | enabled
  | address
  | language
  | lines
  | muted
  deriving DecidableEq, Repr

/-- Items of a language, numbered from 1 in the order of R166. -/
inductive LanguageItem where
  | code
  | base
  | perChar
  | cap
  | gap
  | catchUp
  deriving DecidableEq, Repr

/-- Items of the engine, numbered from 1 in the order of R166; each enable counts as one item (R185). -/
inductive EngineItem where
  | slip
  | smoothing
  | horizon
  | silenceLimit
  | gapLimit
  | rateWindow
  | onSilence
  | onGap
  | onReverse
  | onRate
  | watchOn
  | watchWindow
  | goReleases
  | censusWindow
  | notice (kind : Fin 12)
  deriving DecidableEq, Repr

/-- A configuration item (R166). -/
inductive ConfigItem where
  | channel (n : Fin 8) (item : ChannelItem)
  | language (l : Fin 6) (item : LanguageItem)
  | engine (item : EngineItem)
  deriving DecidableEq, Repr

def channelItems : List ChannelItem := [.enabled, .address, .language, .lines, .muted]
def languageItems : List LanguageItem := [.code, .base, .perChar, .cap, .gap, .catchUp]
def engineItems : List EngineItem :=
  [.slip, .smoothing, .horizon, .silenceLimit, .gapLimit, .rateWindow, .onSilence, .onGap, .onReverse, .onRate,
   .watchOn, .watchWindow, .goReleases, .censusWindow] ++ (List.finRange 12).map .notice

/-- The item an item number names (R185): the object in the first byte, the item in the second. -/
def itemOf (number : BitVec 16) : Option ConfigItem :=
  let object := number.toNat / 256
  let i := number.toNat % 256
  if i = 0 then none
  else if object = 0 then (engineItems[i - 1]?).map .engine
  else if h : 0x10 ≤ object ∧ object < 0x18 then
    (channelItems[i - 1]?).map (.channel ⟨object - 0x10, by omega⟩)
  else if h : 0x20 ≤ object ∧ object < 0x26 then
    (languageItems[i - 1]?).map (.language ⟨object - 0x20, by omega⟩)
  else none

/-- Lowest and highest value of an item (R6, R50, R74, R75, R166); a code is judged by `codeOk` besides. -/
def ConfigItem.range : ConfigItem → Nat × Nat
  | .channel _ .enabled => (0, 1)
  | .channel _ .address => (1, 223)
  | .channel _ .language => (0, 5)
  | .channel _ .lines => (1, 3)
  | .channel _ .muted => (0, 1)
  | .language _ .code => (0, 0xFFFFFF)
  | .language _ .base => (0, 3000)
  | .language _ .perChar => (0, 250)
  | .language _ .cap => (500, 15000)
  | .language _ .gap => (0, 1000)
  | .language _ .catchUp => (25, 100)
  | .engine .slip => (0, 10000)
  | .engine .smoothing => (1, 16)
  | .engine .horizon => (1, 16)
  | .engine .silenceLimit => (100, 10000)
  | .engine .gapLimit => (1, 32)
  | .engine .rateWindow => (10, 90)
  | .engine .onSilence => (0, 1)
  | .engine .onGap => (0, 1)
  | .engine .onReverse => (0, 1)
  | .engine .onRate => (0, 1)
  | .engine .watchOn => (0, 1)
  | .engine .watchWindow => (1, 16)
  | .engine .goReleases => (0, 1)
  | .engine .censusWindow => (10, 500)
  | .engine (.notice _) => (0, 1)

/-- Bytes of an item's value: by the end of its range, and 3 for a code (R185). -/
def ConfigItem.size : ConfigItem → Nat
  | .language _ .code => 3
  | item => if item.range.2 ≤ 255 then 1 else 2

/-- Whether an item is structural (R166). -/
def ConfigItem.structural : ConfigItem → Bool
  | .channel _ .muted => false
  | .channel _ _ => true
  | .language _ .code => true
  | _ => false

/-- A code is three small letters, or none (R166, R185). -/
def codeOk (v : Nat) : Bool := v = 0 || (be 3 v).all (fun b => 0x61 ≤ b.toNat && b.toNat ≤ 0x7A)

/-- Whether a value lies in an item's range (R166). -/
def ConfigItem.inRange (item : ConfigItem) (v : Nat) : Bool :=
  item.range.1 ≤ v && v ≤ item.range.2 &&
    (match item with
     | .language _ .code => codeOk v
     | _ => true)

/-- A pair names an item with a value of that item's size (R167). -/
def pairSized (p : ConfigPair) : Bool :=
  match itemOf p.item with
  | some item => p.value.length = item.size
  | none => false

/-! ### Requests (R164, R185) -/

/-- The code of a request (R185). -/
def requestCode : Request → Byte
  | .identify => 0x01
  | .readStatus => 0x02
  | .readCounters => 0x03
  | .readConfig => 0x04
  | .setConfig _ => 0x05
  | .commitConfig => 0x06
  | .loadAct _ => 0x10
  | .start _ => 0x11
  | .hold => 0x12
  | .resume => 0x13
  | .stop => 0x14
  | .unload => 0x15
  | .setPointer _ => 0x16
  | .showMessage .. => 0x20
  | .clearMessage .. => 0x21
  | .readStore .. => 0x30
  | .programStore .. => 0x31
  | .eraseSector _ => 0x32
  | .verifyAct _ => 0x33
  | .checksum .. => 0x34
  | .protectAct _ => 0x35
  | .unprotectAct _ => 0x36
  | .lockShow => 0x37
  | .readEcc => 0x38
  | .clearEcc => 0x39
  | .census => 0x40
  | .readCensus => 0x41
  | .screenTest .. => 0x42
  | .stopTest => 0x43
  | .restart => 0x7F

/-- The parameters of a request (R185). -/
def requestParameters : Request → List Byte
  | .setConfig pairs => (pairs.map (fun p => be 2 p.item.toNat ++ p.value)).flatten
  | .loadAct act | .verifyAct act | .protectAct act | .unprotectAct act => [act]
  | .start force => [force]
  | .setPointer label => be 2 label.number.toNat ++ [label.suffix]
  | .showMessage level mask duration text => [level, mask] ++ be 2 duration.toNat ++ text
  | .clearMessage level mask => [level, mask]
  | .readStore address length => be 4 address.toNat ++ [length]
  | .programStore address data => be 4 address.toNat ++ data
  | .eraseSector sector => be 2 sector.toNat
  | .checksum address length => be 4 address.toNat ++ be 4 length.toNat
  | .screenTest channel count length gap mode =>
    [channel] ++ be 2 count.toNat ++ [length] ++ be 2 gap.toNat ++ [mode]
  | .identify | .readStatus | .readCounters | .readConfig | .commitConfig | .hold | .resume | .stop | .unload
  | .lockShow | .readEcc | .clearEcc | .census | .readCensus | .stopTest | .restart => []

/-- The payload of a request (R164, R184). -/
def requestPayload (r : Request) (tag confirm : Byte) : List Byte := [requestCode r, tag, confirm] ++ requestParameters r

/-- The pairs of a SET_CONFIG list, or none where a pair names no item or the last is cut short (R164, R167). The fuel
is the number of bytes left. -/
def pairsOf : Nat → List Byte → Option (List ConfigPair)
  | _, [] => some []
  | 0, _ => none
  | fuel + 1, a :: b :: rest =>
    let number := BitVec.ofNat 16 (ofBe [a, b])
    match itemOf number with
    | none => none
    | some item =>
      if rest.length < item.size then none
      else (pairsOf fuel (rest.drop item.size)).map
        ({ item := number, value := rest.take item.size } :: ·)
  | _, [_] => none

/-- The request some code and parameters spell, or none (R164): the code names a request and the parameters have the
length it calls for. -/
def requestOf (code : Byte) (ps : List Byte) : Option Request :=
  match code.toNat, ps with
  | 0x01, [] => some .identify
  | 0x02, [] => some .readStatus
  | 0x03, [] => some .readCounters
  | 0x04, [] => some .readConfig
  | 0x05, ps => (pairsOf ps.length ps).map .setConfig
  | 0x06, [] => some .commitConfig
  | 0x10, [a] => some (.loadAct a)
  | 0x11, [a] => some (.start a)
  | 0x12, [] => some .hold
  | 0x13, [] => some .resume
  | 0x14, [] => some .stop
  | 0x15, [] => some .unload
  | 0x16, [a, b, c] => some (.setPointer ⟨BitVec.ofNat 16 (ofBe [a, b]), c⟩)
  | 0x20, level :: mask :: a :: b :: text => some (.showMessage level mask (BitVec.ofNat 16 (ofBe [a, b])) text)
  | 0x21, [level, mask] => some (.clearMessage level mask)
  | 0x30, [a, b, c, d, n] => some (.readStore (BitVec.ofNat 32 (ofBe [a, b, c, d])) n)
  | 0x31, a :: b :: c :: d :: data => some (.programStore (BitVec.ofNat 32 (ofBe [a, b, c, d])) data)
  | 0x32, [a, b] => some (.eraseSector (BitVec.ofNat 16 (ofBe [a, b])))
  | 0x33, [a] => some (.verifyAct a)
  | 0x34, [a, b, c, d, e, f, g, h] =>
    some (.checksum (BitVec.ofNat 32 (ofBe [a, b, c, d])) (BitVec.ofNat 32 (ofBe [e, f, g, h])))
  | 0x35, [a] => some (.protectAct a)
  | 0x36, [a] => some (.unprotectAct a)
  | 0x37, [] => some .lockShow
  | 0x38, [] => some .readEcc
  | 0x39, [] => some .clearEcc
  | 0x40, [] => some .census
  | 0x41, [] => some .readCensus
  | 0x42, [ch, a, b, len, c, d, mode] =>
    some (.screenTest ch (BitVec.ofNat 16 (ofBe [a, b])) len (BitVec.ofNat 16 (ofBe [c, d])) mode)
  | 0x43, [] => some .stopTest
  | 0x7F, [] => some .restart
  | _, _ => none

/-- The request a payload decodes to (R164): at least code, tag and confirm, then the parameters. -/
def decodeRequest : List Byte → Option Request
  | code :: _ :: _ :: ps => requestOf code ps
  | _ => none

end Sys2Proof.Machine
end

