-- ==== Sys2Proof/Machine/Layouts.lean ====
section
/-! DEFINITION. The bytes of what the engine sends: enumerations and fields (R183), CAPT payloads with folding (R92,
R184), NOTE contents (R171, R184), tool frames (R178, R184), responses (R164, R184). Where R184 leaves the place of a
presence byte to the reader, see log 19. -/

namespace Sys2Proof.Machine

/-! ### Enumerated values (R183): the position in the list -/

def FollowState.code : FollowState → Nat
  | .idle => 0 | .locked => 1 | .coasting => 2 | .held => 3 | .lost => 4

def FollowCause.code : FollowCause → Nat
  | .firstReport => 0 | .progress => 1 | .horizon => 2 | .hold => 3 | .release => 4 | .jump => 5 | .silence => 6
  | .gap => 7 | .reverse => 8 | .rate => 9 | .relock => 10 | .reset => 11

def FireCause.code : FireCause → Nat
  | .go => 0 | .goSkip => 1 | .back => 2 | .mark => 3 | .count => 4 | .follow => 5 | .overrun => 6 | .resync => 7

def GoReason.code : GoReason → Nat
  | .state => 0 | .atEnd => 1 | .late => 2 | .unknown => 3 | .range => 4

def ShowState.code : ShowState → Nat
  | .dark => 0 | .preset => 1 | .run => 2 | .hold => 3

def ShowCause.code : ShowCause → Nat
  | .loadAct => 0 | .start => 1 | .hold => 2 | .resume => 3 | .go => 4 | .stop => 5 | .unload => 6 | .restart => 7

def Layer.code : Layer → Nat
  | .off => 0 | .blank => 1 | .gap => 2 | .showing => 3 | .settled => 4

def Present.code : Present → Nat
  | .unknown => 0 | .found => 1 | .missing => 2

def CaptionKind.code : CaptionKind → Nat
  | .shows => 0 | .blank => 1 | .dark => 2

def CaptionSource.code : CaptionSource → Nat
  | .title => 0 | .slate => 1 | .house => 2 | .alert => 3

def DoneResult.code : DoneResult → Nat
  | .ok => 0 | .match_ => 1 | .mismatch => 2 | .ecc => 3 | .noAct => 4 | .corrupt => 5 | .check => 6 | .pass => 7
  | .fail => 8 | .complete => 9 | .stopped => 10 | .disabled => 11

def Reader.code : Reader → Nat
  | .staging => 0 | .readStore => 1 | .load => 2 | .verify => 3 | .checksum => 4 | .protection => 5

def OpName.code : OpName → Nat
  | .none => 0 | .program => 1 | .erase => 2 | .verify => 3 | .checksum => 4 | .protect => 5 | .unprotect => 6
  | .load => 7 | .census => 8 | .test => 9

def CounterName.code : CounterName → Nat
  | .uCheck => 0 | .dCheck => 1 | .badKind => 2 | .uPassDrop => 3 | .dPassDrop => 4 | .reqDrop => 5 | .seqGap => 6
  | .rateReject => 7 | .lateGo => 8 | .overrunCues => 9 | .skippedTitles => 10 | .textLate => 11 | .eccCorrected => 12
  | .eccFailed => 13

/-- The name TEST_ERRORS in a COUNTER_HALF notice (R179, R183). -/
def testErrorsCode : Nat := 14

def ItemKind.code : ItemKind → Nat
  | .title => 0 | .blank => 1

def Trigger.code : Trigger → Nat
  | .manual => 0 | .mark => 1 | .count _ => 2 | .follow _ => 3

def CensusResult.code : CensusResult → Nat
  | .none => 0 | .pass => 1 | .fail => 2

/-- Result codes of a response (R183). -/
def Result.code : Result → Nat
  | .ok => 0 | .accepted => 1 | .busy => 2 | .state => 3 | .range => 4 | .protected_ => 5 | .notErased => 6 | .locked => 7
  | .invalid => 8 | .confirm => 9 | .notValid => 10 | .missing => 11

/-- The level number of a message (R98). -/
def Level.number : Level → Nat
  | .slate => 1 | .house => 2 | .alert => 3

/-- The level a number names (R100). -/
def levelOf (b : Byte) : Option Level :=
  if b = 1 then some .slate else if b = 2 then some .house else if b = 3 then some .alert else none

/-! ### Fields (R183) -/

def labelBytes (l : Label) : List Byte := be 2 l.number.toNat ++ [l.suffix]

/-- The latch as a set: bit 0 SILENCE, 1 GAP, 2 REVERSE, 3 RATE (R183). -/
def CauseSet.byte (c : CauseSet) : Byte :=
  BitVec.ofNat 8 (c.silence.toNat + 2 * c.gap.toNat + 4 * c.reverse.toNat + 8 * c.rate.toNat)

/-- An index with its label: 2 bytes, then the label, which is absent where the index names no cue. -/
def Place.bytes (p : Place) : List Byte := be 2 p.index ++ optionally labelBytes p.label

/-- An index that names a cue, with its label: one item of both, so that lf is absent or present as a whole (R49, R184;
log 19). -/
def Place.fired (p : Place) : List Byte := be 2 p.index ++ labelBytes (p.label.getD ⟨0, 0⟩)

def Region.bytes (r : Region) : List Byte := be 2 r.first ++ be 2 r.count

/-! ### Captions (R92) -/

/-- Keep the first breaks of a text and replace every later one by a space (R92); the break is 0x0A (R183). -/
def fold : Nat → List Byte → List Byte
  | _, [] => []
  | keep, b :: rest =>
    if b = 0x0A then
      match keep with
      | 0 => 0x20 :: fold 0 rest
      | k + 1 => 0x0A :: fold k rest
    else b :: fold keep rest

/-- Number of line breaks in a text. -/
def lineBreaks (bytes : List Byte) : Nat := bytes.countP (· = 0x0A)

/-- A text as a channel of some lines shows it: its bytes and its line count (R92). -/
def folded (lines : Nat) (bytes : List Byte) (count : Nat) : List Byte × Nat :=
  if lines < count then (fold (lines - 1) bytes, lines) else (bytes, count)

def Level.source : Level → CaptionSource
  | .slate => .slate | .house => .house | .alert => .alert

/-- The caption of a content on a channel (R92, R154). -/
def captionOf (dest : Byte) (n : Fin 8) (number : Byte) (lines : Nat) : Content → Caption
  | .dark => { dest, channel := n, number, kind := .dark, source := none, label := none, lines := 0, bytes := [], alert := false }
  | .blank => { dest, channel := n, number, kind := .blank, source := none, label := none, lines := 0, bytes := [], alert := false }
  | .title label bytes count =>
    { dest, channel := n, number, kind := .shows, source := some .title, label := some label
      lines := (folded lines bytes count).2, bytes := (folded lines bytes count).1, alert := false }
  | .message level bytes count =>
    { dest, channel := n, number, kind := .shows, source := some level.source, label := none
      lines := (folded lines bytes count).2, bytes := (folded lines bytes count).1, alert := level = .alert }

/-- The CAPT payload (R184): an absent source, label or text holds 0 (R181). -/
def Caption.payload (c : Caption) : List Byte :=
  [BitVec.ofNat 8 c.channel, c.number] ++ be 1 c.kind.code ++ be 1 ((c.source.map (·.code)).getD 0) ++
    labelBytes (c.label.getD ⟨0, 0⟩) ++ be 1 c.lines ++ be 1 c.bytes.length ++ c.bytes

/-! ### Notices (R171, R184) -/

def Notice.kind : Notice → NoticeKind
  | .cueFired .. => .cueFired
  | .titleSlip .. => .titleSlip
  | .titleSkipped .. => .titleSkipped
  | .goIgnored .. => .goIgnored
  | .overrun .. => .overrun
  | .followState .. => .followState
  | .showState .. => .showState
  | .actEnd .. => .actEnd
  | .opDone .. => .opDone
  | .counterHalf .. => .counterHalf
  | .testErrors .. => .counterHalf
  | .storeError .. => .storeError
  | .messageExpired .. => .messageExpired

/-- The place of a kind among the notice enables, in the order of R171. -/
def NoticeKind.index : NoticeKind → Fin 12
  | .cueFired => 0 | .titleSlip => 1 | .titleSkipped => 2 | .goIgnored => 3 | .overrun => 4 | .followState => 5
  | .showState => 6 | .actEnd => 7 | .opDone => 8 | .counterHalf => 9 | .storeError => 10 | .messageExpired => 11

/-- The contents of a notice, in the order its rule lists them (R184). -/
def Notice.contents : Notice → List Byte
  | .cueFired label index cause time projected =>
    labelBytes label ++ be 2 index ++ be 1 cause.code ++ be 6 time ++ be 3 projected
  | .titleSlip channel index label kind resync fired taken slip =>
    be 1 channel ++ be 2 index ++ labelBytes label ++ be 1 kind.code ++ yes resync ++ be 6 fired ++ be 6 taken ++ be 4 slip
  | .titleSkipped channel index label kind fired awaiting =>
    be 1 channel ++ be 2 index ++ labelBytes label ++ be 1 kind.code ++ be 6 fired ++ yes awaiting
  | .goIgnored reason target back show_ pointer last time =>
    be 1 reason.code ++ labelBytes target ++ yes back ++ be 1 show_.code ++ pointer.bytes ++
      optionally Place.fired last ++ be 6 time
  | .overrun number first last fired =>
    be 2 number ++ labelBytes (first.label.getD ⟨0, 0⟩) ++ be 2 first.index ++ labelBytes (last.label.getD ⟨0, 0⟩) ++
      be 2 last.index ++ labelBytes (fired.label.getD ⟨0, 0⟩) ++ be 2 fired.index
  | .followState previous new cause beat anchor time =>
    be 1 previous.code ++ be 1 new.code ++ be 1 cause.code ++ be 3 beat ++ be 3 anchor ++ be 6 time
  | .showState previous new cause tag act pointer last time =>
    be 1 previous.code ++ be 1 new.code ++ be 1 cause.code ++ optionally (fun t => [t]) tag ++ optionally (be 1) act ++
      pointer.bytes ++ optionally Place.fired last ++ be 6 time
  | .actEnd act label index time => be 1 (act.getD 0) ++ labelBytes label ++ be 2 index ++ be 6 time
  | .opDone op tag result data => be 1 op.code ++ [tag] ++ be 1 result.code ++ data
  | .counterHalf counter time => be 1 counter.code ++ be 6 time
  | .testErrors channel time => be 1 testErrorsCode ++ be 1 channel ++ be 6 time
  | .storeError cue label lang address => be 1 0 ++ be 2 cue ++ labelBytes label ++ be 1 lang ++ be 4 address
  | .messageExpired level tag channels placed expired =>
    be 1 level.number ++ [tag] ++ [channels] ++ be 6 placed ++ be 6 expired

/-- The NOTE payload: kind code from 1, flags with the discarded flag in bit 0, contents (R183, R184). -/
def QueuedNotice.payload (q : QueuedNotice) : List Byte :=
  be 1 (q.notice.kind.index + 1) ++ yes q.discarded ++ q.notice.contents

/-! ### Tool frames and responses (R164, R178, R184) -/

/-- Byte i of test frame n (R178). -/
def testByte (n i : Nat) : Byte := BitVec.ofNat 8 (37 * n + 11 * i)

/-- The test bytes of frame n (R178). -/
def testBytes (n length : Nat) : List Byte := (List.range length).map (testByte n)

/-- The payload of a tool frame (R184); a PROBE starts at hop 0 (R174). -/
def ToolFrame.payload : ToolFrame → List Byte
  | .probe id _ => [id, 0]
  | .test _ n length _ => be 2 n ++ testBytes n length

/-- The RESP payload (R184). -/
def Response.payload (r : Response) : List Byte := [r.code, r.tag] ++ be 1 r.result.code ++ r.data

end Sys2Proof.Machine
end

