-- ==== Sys2Proof/Machine/Flags.lean ====
section
/-! DEFINITION. The flags of the block: the counter set with COUNTER_HALF (R170), and the admission of notices with the
discarded flag (R171). -/

namespace Sys2Proof.Machine

/-- The place of a counter in the set (R170, R183). -/
def CounterName.index : CounterName → Fin 14
  | .uCheck => 0 | .dCheck => 1 | .badKind => 2 | .uPassDrop => 3 | .dPassDrop => 4 | .reqDrop => 5 | .seqGap => 6
  | .rateReject => 7 | .lateGo => 8 | .overrunCues => 9 | .skippedTitles => 10 | .textLate => 11 | .eccCorrected => 12
  | .eccFailed => 13

/-- A counter's value after one increment, saturating at 255 (R170). -/
def bumped (c : Byte) : Byte := if c = 255 then 255 else c + 1

/-- Increment a counter (R170). Passing from 127 to 128 makes a COUNTER_HALF notice, held back until every other notice
of the event is offered (log 8). -/
def count (name : CounterName) (s : State) : State :=
  let c := s.counters[name.index]
  let s1 := s.withCounters (s.counters.set name.index (bumped c))
  if c = 127 then
    s1.withManagement { s1.management with halves := s1.management.halves ++ [.counterHalf name (millis s.clock)] }
  else s1

/-- Increment a counter several times. -/
def countTimes (name : CounterName) : Nat → State → State
  | 0, s => s
  | k + 1, s => countTimes name k (count name s)

/-- A notice offered to the queue (R171): not made when its kind is disabled, admitted with the discarded flag when a
place is free, and otherwise discarded. -/
def admitNotice (n : Notice) (s : State) : State :=
  let g := s.management
  if s.config.engine.notices[n.kind.index] then
    if g.notices.length < Config.noticePlaces then
      s.withManagement { g with notices := g.notices ++ [⟨g.discarded, n⟩], discarded := false }
    else s.withManagement { g with discarded := true }
  else s

end Sys2Proof.Machine
end

