-- ==== Sys2Proof/Machine/Link.lean ====
section
/-! DEFINITION. The link unit: the arbiters of both ports (R153, R156, R157), the caption slots (R154), the tool slot
(R155), the response slot, and the passthrough FIFOs (R152). An arbiter chooses as soon as a frame reaches its idle port
(R156, R157 "whenever"; DEDUCED, log 6). -/

namespace Sys2Proof.Machine

/-! ### Port U (R157) -/

/-- A response that the U arbiter chooses leaves the slot with the header of R153; the response of a RESTART is then in
transmission (R160). -/
def sendResponse (r : Response) (s : State) : State :=
  let l := s.link
  let s1 := s.withLink { l with
    response := none
    sendingU := some { dest := r.dest, source := l.address, kind := kindResp, seq := l.seqU, payload := r.payload }
    seqU := l.seqU + 1 }
  if s.management.restart = .waiting then s1.withManagement { s1.management with restart := .sending } else s1

/-- The notice at the head leaves the queue as a NOTE frame to address 0 (R153, R157). -/
def sendNotice (q : QueuedNotice) (rest : List QueuedNotice) (s : State) : State :=
  let l := s.link
  (s.withManagement { s.management with notices := rest }).withLink { l with
    sendingU := some { dest := 0, source := l.address, kind := kindNote, seq := l.seqU, payload := q.payload }
    seqU := l.seqU + 1
    uNext := .upFifo }

/-- The head of the up FIFO leaves unchanged (R152, R157). -/
def sendUp (f : Frame) (rest : List Frame) (s : State) : State :=
  s.withLink { s.link with upFifo := rest, sendingU := some f, uNext := .notices }

/-- The U arbiter's choice, made when port U is idle and a source holds a frame (R157). -/
def chooseU (s : State) : State :=
  if s.link.sendingU.isSome then s
  else match s.link.response with
    | some r => sendResponse r s
    | none =>
      match s.link.uNext, s.management.notices, s.link.upFifo with
      | .notices, q :: rest, _ => sendNotice q rest s
      | .notices, [], f :: rest => sendUp f rest s
      | .upFifo, _, f :: rest => sendUp f rest s
      | .upFifo, q :: rest, [] => sendNotice q rest s
      | _, [], [] => s

/-- A notice offered to the queue (R171), which may find port U idle. -/
def notify (n : Notice) (s : State) : State := chooseU (admitNotice n s)

/-- The COUNTER_HALF notices of the step, offered after its other notices (R170). -/
def offerHalves (s : State) : State :=
  (s.management.halves).foldl (fun s n => notify n s) (s.withManagement { s.management with halves := [] })

/-- A response placed in the response slot (R163), which may find port U idle. -/
def placeResponse (r : Response) (s : State) : State := chooseU (s.withLink { s.link with response := some r })

/-! ### Port D (R156) -/

/-- Channels in the order counting from the one after the last served (R156). -/
def afterChannel (last : Fin 8) : List (Fin 8) := allChannels.map (fun i => last + 1 + i)

/-- The caption the D arbiter chooses: the first with the alert mark, or else the first (R156). -/
def pickCaption (l : Link) : Option (Fin 8 × Caption) :=
  let held := (afterChannel l.dLast).filterMap (fun n => (l.slots[n]).map (fun c => (n, c)))
  match held.find? (fun p => p.2.alert) with
  | some p => some p
  | none => held.head?

/-- A caption leaves its slot with the header of R153. -/
def sendCaption (n : Fin 8) (c : Caption) (s : State) : State :=
  let l := s.link
  s.withLink { l with
    slots := l.slots.set n none
    sendingD := some ⟨{ dest := c.dest, source := l.address, kind := kindCapt, seq := l.seqD, payload := c.payload }, none⟩
    seqD := l.seqD + 1
    dNext := .tools
    dLast := n }

/-- A frame of a running test is counted as sent when the D arbiter chooses it (R178). -/
def countSent (t : ToolFrame) (s : State) : State :=
  match t, s.tools.running with
  | .test _ _ _ true, .test r => s.withTools { s.tools with running := .test { r with sent := r.sent + 1 } }
  | _, _ => s

/-- The tool frame leaves its slot, addressed as it stands at the choice (R153, R178); a frame that waited for the slot
is offered at that instant (R155). -/
def sendTool (t : ToolFrame) (s : State) : State :=
  let l := s.link
  let f : Frame := match t with
    | .probe .. => { dest := 255, source := l.address, kind := kindProbe, seq := l.seqD, payload := t.payload }
    | .test n .. =>
      { dest := s.config.channels[n].address, source := l.address, kind := kindTest, seq := l.seqD, payload := t.payload }
  countSent t (s.withLink { l with
    tool := l.toolWaiting, toolWaiting := none, sendingD := some ⟨f, some t⟩, seqD := l.seqD + 1, dNext := .downFifo })

/-- The head of the down FIFO leaves unchanged (R152). -/
def sendDown (f : Frame) (rest : List Frame) (s : State) : State :=
  s.withLink { s.link with downFifo := rest, sendingD := some ⟨f, none⟩, dNext := .captions }

/-- Serve one source of the D arbiter, if it holds a frame (R156). -/
def serveD (source : SourceD) (s : State) : Option State :=
  match source with
  | .captions => (pickCaption s.link).map (fun p => sendCaption p.1 p.2 s)
  | .tools => (s.link.tool).map (fun t => sendTool t s)
  | .downFifo =>
    match s.link.downFifo with
    | [] => none
    | f :: rest => some (sendDown f rest s)

/-- The circular order of the sources from the one named (R156). -/
def circularFrom : SourceD → List SourceD
  | .captions => [.captions, .tools, .downFifo]
  | .tools => [.tools, .downFifo, .captions]
  | .downFifo => [.downFifo, .captions, .tools]

/-- The D arbiter's choice, made when port D is idle and a source holds a frame (R156). -/
def chooseD (s : State) : State :=
  if s.link.sendingD.isSome then s
  else ((circularFrom s.link.dNext).findSome? (fun source => serveD source s)).getD s

/-- A caption written into its channel's slot (R154), replacing and counting one not yet chosen. -/
def putCaption (c : Caption) (s : State) : State :=
  let l := s.link
  let coalesced :=
    if (l.slots[c.channel]).isSome then (if l.coalesced = 65535 then l.coalesced else l.coalesced + 1) else l.coalesced
  chooseD (s.withLink { l with slots := l.slots.set c.channel (some c), coalesced := coalesced })

/-- A tool offers a frame: into the slot, or waiting while a frame left by an ended tool is still there (R155). -/
def offerTool (t : ToolFrame) (s : State) : State :=
  match s.link.tool with
  | none => chooseD (s.withLink { s.link with tool := some t })
  | some _ => s.withLink { s.link with toolWaiting := some t }

/-- A tool frame whose tool has ended (R155). -/
def ToolFrame.ended : ToolFrame → ToolFrame
  | .probe id _ => .probe id false
  | .test n k len _ => .test n k len false

/-- A tool ends: its frame in the slot or in transmission goes on without it, and a frame it has not yet offered is not
offered (R155; DESIGN CHOICE, log 23). -/
def leaveTool (s : State) : State :=
  let l := s.link
  s.withLink { l with
    tool := l.tool.map ToolFrame.ended
    toolWaiting := none
    sendingD := l.sendingD.map (fun x => { x with tool := x.tool.map ToolFrame.ended }) }

/-! ### Passthrough (R152) -/

/-- A frame to be forwarded down joins the down FIFO, or is dropped and counted (R152). -/
def forwardDown (f : Frame) (s : State) : State :=
  if s.link.downFifo.length < Config.passPlaces then
    chooseD (s.withLink { s.link with downFifo := s.link.downFifo ++ [f] })
  else count .dPassDrop s

/-- A frame to be forwarded up joins the up FIFO, or is dropped and counted (R152). -/
def forwardUp (f : Frame) (s : State) : State :=
  if s.link.upFifo.length < Config.passPlaces then
    chooseU (s.withLink { s.link with upFifo := s.link.upFifo ++ [f] })
  else count .uPassDrop s

/-- A bad frame is discarded whole and counted (R148). -/
def discardBad : Port → State → State
  | .u, s => count .uCheck s
  | .d, s => count .dCheck s

end Sys2Proof.Machine
end

