-- ==== Sys2Proof/Machine/Tracker.lean ====
section
/-! DEFINITION. The score tracker (chapter Following the Score): what a report, a deadline or a reset makes of it. The
functions are over the tracker and the engine's live items alone; `Tracked` says what goes to the neighbours. -/

namespace Sys2Proof.Machine

/-- What the tracker hands on when it has taken a report (R27, R28): notices in order, how often SEQ_GAP and
RATE_REJECT count, and the event for the firing unit. -/
structure Tracked where
  tracker : Tracker
  notices : List Notice
  gaps : Nat
  rejects : Nat
  event : Option ReportEvent
  deriving DecidableEq, Repr

/-- The tracker after a report without any effect on its neighbours. -/
def quiet (k : Tracker) : Tracked := { tracker := k, notices := [], gaps := 0, rejects := 0, event := none }

/-! ### Projection and arrival (R15, R16) -/

/-- The projected position at a show-clock time (R15). -/
def Tracker.projected (k : Tracker) (horizon : Nat) (now : Time) : Nat :=
  if k.follow = .locked ∨ k.follow = .coasting then
    min (min (k.anchorPos + elapsed k.anchorTime now * 480 / k.beat) (k.anchorPos + 480 * horizon)) Config.positionMax
  else k.anchorPos

/-- When a score position will be reached (R16). -/
def Tracker.arrival (k : Tracker) (horizon : Nat) (m : Nat) : Arrival :=
  if k.settle then .noTime
  else match k.follow with
    | .lost => .noTime
    | .idle => .noTime
    | .held => if m ≤ k.anchorPos then .already else .noTime
    | .locked | .coasting =>
      if m ≤ k.anchorPos then .reachedAt k.anchorTime
      else if m ≤ k.anchorPos + 480 * horizon then
        .reachedAt (later k.anchorTime (ceilDiv ((m - k.anchorPos) * k.beat) 480))
      else .noTime

/-! ### Pieces of the report rules -/

/-- Silence deadline of a report (R23). -/
def silenceAt (e : EngineConfig) (t : Time) : Time := later t (1000 * e.silenceLimit)

/-- Horizon deadline of an anchor time (R17). -/
def horizonAt (e : EngineConfig) (beat : Nat) (t : Time) : Time := later t (e.horizon * beat)

/-- Anchor and sample base both at a report (R13). -/
def Tracker.rebased (k : Tracker) (r : Report) : Tracker :=
  { k with anchorPos := r.pos, anchorTime := r.time, basePos := r.pos, baseTime := r.time }

/-- LOCKED with both deadlines armed from a report (R17, R23). -/
def Tracker.lockedAt (k : Tracker) (e : EngineConfig) (t : Time) : Tracker :=
  { k with follow := .locked, horizon := some (horizonAt e k.beat t), silence := some (silenceAt e t) }

/-- HELD with both deadlines disarmed (R18). -/
def Tracker.heldNow (k : Tracker) : Tracker := { k with follow := .held, horizon := none, silence := none }

/-- The FOLLOW_STATE notice of a change, if the follow state changed (R28). -/
def followNotice (previous : FollowState) (k : Tracker) (cause : FollowCause) (time : Time) : List Notice :=
  if previous = k.follow then []
  else [.followState previous k.follow cause k.beat k.anchorPos (millis time)]

/-- The event of a report (R27). -/
def eventOf (kind : ReportKind) (old new : Tracker) (before : FollowState) (reseek : Option Nat) : ReportEvent :=
  { kind := kind, oldPos := old.anchorPos, newPos := new.anchorPos, newTime := new.anchorTime, before := before,
    after := new.follow, reseek := reseek, settleCleared := old.settle && !new.settle }

/-! ### Tempo (R10, R11, R12) -/

/-- The raw sample of a report's span from the sample base (R10). -/
def rawSample (k : Tracker) (r : Report) : Nat := elapsed k.baseTime r.time * 480 / (r.pos - k.basePos)

/-- Whether a raw sample lies in the rate window, bounds inclusive (R11). -/
def inWindow (beat window sample : Nat) : Bool :=
  beat * (100 - window) ≤ sample * 100 && sample * 100 ≤ beat * (100 + window)

/-- A sample clamped to the device range (R12). -/
def clampSample (sample : Nat) : Nat := max Config.beatMin (min Config.beatMax sample)

/-- The beat period smoothed toward a sample, truncating toward zero (R12). -/
def smoothed (beat sample weight : Nat) : Nat :=
  ((beat : Int) + (((sample : Int) - (beat : Int)) * (weight : Int)).tdiv 16).toNat

/-- The sample of a normal report that spans at least 120 ticks (R11, R12, R13); the flag says it was rejected. -/
def takeSample (e : EngineConfig) (k : Tracker) (r : Report) : Tracker × Bool :=
  let raw := rawSample k r
  let base : Tracker := { k with basePos := r.pos, baseTime := r.time }
  if e.onRate ∧ ¬ inWindow k.beat e.rateWindow raw then ({ base with rejects := k.rejects + 1 }, true)
  else ({ base with rejects := 0, beat := smoothed k.beat (clampSample raw) e.smoothing }, false)

/-! ### Losses and relock (R24, R25) -/

/-- A cause added to the latch (R24, R26). -/
def CauseSet.add (c : CauseSet) : FollowCause → CauseSet
  | .silence => { c with silence := true }
  | .gap => { c with gap := true }
  | .reverse => { c with reverse := true }
  | .rate => { c with rate := true }
  | _ => c

/-- The tracker enters LOST (R24, steps 1 and 3 to 5). -/
def Tracker.lostBy (k : Tracker) (cause : FollowCause) : Tracker :=
  { k with follow := .lost, latch := k.latch.add cause, silence := none, horizon := none, rejects := 0, candidate := false }

/-- How a report taken in LOST is named in its event (R27): by its flags, JUMP before HOLD, also where it causes the loss
(DEDUCED, log 21). -/
def lostKind (r : Report) : ReportKind := if r.jump then .jump else if r.hold then .hold else .normal

/-- A report taken in LOST, by the first case of R25 that fits; d says it was the next in sequence. -/
def takeInLost (e : EngineConfig) (before : FollowState) (next : Bool) (k : Tracker) (r : Report) : Tracked :=
  let follows := k.candidate && next && !r.hold && !r.jump && decide (k.anchorPos ≤ r.pos)
  let raw := rawSample k r
  if follows ∧ k.basePos + 120 ≤ r.pos ∧ Config.beatMin ≤ raw ∧ raw ≤ Config.beatMax then
    let k1 := ({ k with beat := raw, rejects := 0, settle := false }.rebased r).lockedAt e r.time
    { quiet k1 with
      notices := followNotice .lost k1 .relock r.time
      event := some (eventOf .normal k k1 before none) }
  else if follows ∧ r.pos < k.basePos + 120 then
    if k.anchorPos < r.pos then
      let k1 : Tracker := { k with anchorPos := r.pos, anchorTime := r.time, settle := false }
      { quiet k1 with event := some (eventOf .normal k k1 before none) }
    else quiet k
  else
    let k1 := { k with candidate := true, settle := k.settle || r.jump }.rebased r
    { quiet k1 with event := some (eventOf (lostKind r) k k1 before (if r.jump then some r.pos else none)) }

/-- A loss made by a report: the tracker enters LOST, and the report is handled at once as the first taken there (R24).
The one event carries the follow state before the report (R24, step 7). -/
def loseBy (e : EngineConfig) (cause : FollowCause) (next : Bool) (k : Tracker) (r : Report) : Tracked :=
  let k1 := k.lostBy cause
  let out := takeInLost e k.follow next k1 r
  { out with notices := followNotice k.follow k1 cause r.time ++ out.notices }

/-! ### Reports by follow state (R9, R14, R18 to R21) -/

/-- The first report in IDLE (R9). -/
def takeFirst (e : EngineConfig) (k : Tracker) (r : Report) : Tracked :=
  let k1 := { k with settle := k.settle || r.jump }.rebased r
  let k2 := if r.hold then k1.heldNow else k1.lockedAt e r.time
  let kind : ReportKind := if r.jump then .jump else if r.hold then .hold else .normal
  { quiet k2 with
    notices := followNotice k.follow k2 .firstReport r.time
    event := some (eventOf kind k k2 k.follow (if r.jump then some r.pos else none)) }

/-- A JUMP report, or a backward report handled as one (R20, R21). -/
def takeJump (e : EngineConfig) (k : Tracker) (r : Report) : Tracked :=
  let k1 := { k with settle := true }.rebased r
  let k2 := if r.hold then k1.heldNow else k1.lockedAt e r.time
  { quiet k2 with
    notices := followNotice k.follow k2 (if r.hold then .hold else .jump) r.time
    event := some (eventOf .jump k k2 k.follow (some r.pos)) }

/-- A HOLD report that is not backward (R18). -/
def takeHold (k : Tracker) (r : Report) : Tracked :=
  let k1 := (k.rebased r).heldNow
  { quiet k1 with
    notices := followNotice k.follow k1 .hold r.time
    event := some (eventOf .hold k k1 k.follow none) }

/-- A HOLD-ending report (R19); at the held position it leaves the settle flag (R22). -/
def takeHoldEnd (e : EngineConfig) (k : Tracker) (r : Report) : Tracked :=
  let k1 := ({ k with settle := k.settle && !decide (k.anchorPos < r.pos) }.rebased r).lockedAt e r.time
  { quiet k1 with
    notices := followNotice k.follow k1 .release r.time
    event := some (eventOf .holdEnd k k1 k.follow none) }

/-- The update of an advancing normal report (R14, part 3). -/
def advance (e : EngineConfig) (old k : Tracker) (r : Report) : Tracked :=
  let k1 := { k with anchorPos := r.pos, anchorTime := r.time, settle := false }.lockedAt e r.time
  { quiet k1 with
    notices := followNotice old.follow k1 .progress r.time
    event := some (eventOf .normal old k1 old.follow none) }

/-- A normal report in LOCKED or COASTING that is not backward (R14). -/
def takeNormal (e : EngineConfig) (next : Bool) (k : Tracker) (r : Report) : Tracked :=
  if r.pos = k.anchorPos then quiet { k with silence := some (silenceAt e r.time) }
  else if k.basePos + 120 ≤ r.pos then
    let sample := takeSample e k r
    if sample.2 then
      if 3 ≤ sample.1.rejects then
        { loseBy e .rate next sample.1 r with rejects := 1 }
      else { advance e k sample.1 r with rejects := 1 }
    else advance e k sample.1 r
  else advance e k k r

/-- A backward report (R21). -/
def takeBackward (e : EngineConfig) (next : Bool) (k : Tracker) (r : Report) : Tracked :=
  if e.onReverse then loseBy e .reverse next k r else takeJump e k r

/-- A report that has passed the sequence check, by follow state (R7, R19). -/
def takePassed (e : EngineConfig) (next : Bool) (k : Tracker) (r : Report) : Tracked :=
  match k.follow with
  | .idle => takeFirst e k r
  | .lost => takeInLost e .lost next k r
  | .locked | .coasting =>
    if r.jump then takeJump e k r
    else if r.pos < k.anchorPos then takeBackward e next k r
    else if r.hold then takeHold k r
    else takeNormal e next k r
  | .held =>
    if r.jump then takeJump e k r
    else if r.pos < k.anchorPos then takeBackward e next k r
    else if r.hold then takeHold k r
    else takeHoldEnd e k r

/-- A report taken in PRESET, RUN or HOLD: the sequence check (R8), then its handling. -/
def takeReport (e : EngineConfig) (k : Tracker) (r : Report) : Tracked :=
  if k.anySeq then takePassed e true { k with anySeq := false, lastSeq := r.seq } r
  else
    let d := (r.seq - k.lastSeq - 1).toNat
    let k1 := { k with lastSeq := r.seq }
    if d = 0 then takePassed e true k1 r
    else if d < 128 then
      if e.onGap ∧ e.gapLimit < d ∧ (k.follow = .locked ∨ k.follow = .coasting ∨ k.follow = .held) then
        { loseBy e .gap false k1 r with gaps := 1 }
      else { takePassed e false k1 r with gaps := 1 }
    else quiet k

/-! ### Deadlines and resets (R5, R17, R23) -/

/-- The silence deadline's expiry (R23); the flag says the follow state changed. -/
def silenceExpired (e : EngineConfig) (k : Tracker) (deadline : Time) : Tracker × List Notice × Bool :=
  if (k.follow = .locked ∨ k.follow = .coasting) ∧ e.onSilence then
    let k1 := { k.lostBy .silence with anySeq := true }
    (k1, followNotice k.follow k1 .silence deadline, true)
  else ({ k with silence := none }, [], false)

/-- The horizon deadline's expiry (R17); the flag says the follow state changed. -/
def horizonExpired (k : Tracker) (deadline : Time) : Tracker × List Notice × Bool :=
  let k1 := { k with horizon := none }
  if k.follow = .locked then
    let k2 := { k1 with follow := .coasting }
    (k2, followNotice k.follow k2 .horizon deadline, true)
  else (k1, [], false)

/-- The tracker after LOAD_ACT success, STOP or UNLOAD, with the beat period of the column (R5). -/
def Tracker.resetTo (k : Tracker) (beat : Nat) (now : Time) : Tracker :=
  { Tracker.initial with beat := beat, anchorTime := now, baseTime := now, latch := k.latch }

end Sys2Proof.Machine
end

