-- ==== Sys2Proof/Machine/Reads.lean ====
section
/-! DEFINITION. The read path of the cue store: the read queue and erase suspension (R114), error correction and the
address trap (R115), the directory entries (R122, R187). -/

namespace Sys2Proof.Machine

/-! ### Units (R115) -/

/-- One unit read for a reader: a corrected bit is counted, a failing unit is counted and trapped if the trap is empty
(R115). -/
def readUnit (reader : Reader) (s : State) (unit : Nat) : State :=
  if s.store.unitFails unit then
    let s1 := count .eccFailed s
    match s1.store.trap with
    | some _ => s1
    | none => s1.withStore { s1.store with trap := some ⟨16 * unit, reader⟩ }
  else if s.store.unitCorrects unit then count .eccCorrected s
  else s

/-- Units read one after another for a reader. -/
def readUnits (reader : Reader) (units : List Nat) (s : State) : State := units.foldl (readUnit reader) s

/-- The address of the first unit of a list that fails. -/
def Store.firstFailure (st : Store) (units : List Nat) : Option Nat := (units.find? st.unitFails).map (16 * ·)

/-! ### Read queue and erase suspension (R114) -/

/-- Whether the operation in flight is an erase. -/
def Store.erasing (st : Store) : Bool :=
  match st.flight with
  | some ⟨.erase _, _⟩ => true
  | _ => false

/-- Whether queued reads must wait for the operation in flight: a program or a protection update (R114, R128). -/
def Store.blocksReads (st : Store) : Bool :=
  match st.flight with
  | some ⟨.program .., _⟩ => true
  | some ⟨.protect _, _⟩ => true
  | some ⟨.unprotect _, _⟩ => true
  | _ => false

/-- A read joins the queue; a running erase is suspended for it (R114), but not while a RESTART is carried out, when the
queue serves no read (R132). -/
def joinQueue (job : ReadJob) (s : State) : State :=
  s.withStore { s.store with
    queue := s.store.queue ++ [job]
    suspended := s.store.suspended || (s.store.erasing && decide (s.management.restart = .none)) }

/-- The read being served leaves the queue; a suspended erase resumes when the queue is empty (R114). -/
def leaveQueue (s : State) : State :=
  let rest := s.store.queue.tail
  s.withStore { s.store with queue := rest, suspended := s.store.suspended && !rest.isEmpty }

/-- Whether the read at the head of the queue is the given one and may be served now (R114, R132). -/
def servable (isJob : ReadJob → Bool) (s : State) : Bool :=
  decide (s.management.restart = .none) && !s.store.blocksReads && (s.store.queue.head?.any isJob)

/-! ### Directory (R122, R187) -/

/-- A directory entry's fields (R122, R187). -/
structure DirEntry where
  first : Nat
  count : Nat
  length : Nat
  cues : Nat
  crc : BitVec 32
  deriving DecidableEq, Repr

/-- Address of the directory entry of an act (R187). -/
def dirAddress (act : Nat) : Nat := (act - 1) * 64

/-- The fields of an act's entry whatever its marker (R187). -/
def dirFields (cells : Cells) (act : Nat) : DirEntry :=
  let b := cells.run (dirAddress act) 15
  { first := fieldNat b 1 2, count := fieldNat b 3 2, length := fieldNat b 5 4, cues := fieldNat b 9 2,
    crc := BitVec.ofNat 32 (fieldNat b 11 4) }

/-- Whether an act's entry is present: its marker holds 0xA5 (R122). -/
def dirPresent (cells : Cells) (act : Nat) : Bool := cells.value (dirAddress act) = 0xA5

/-- An act's directory entry, if present (R122). -/
def dirEntry (cells : Cells) (act : Nat) : Option DirEntry :=
  if dirPresent cells act then some (dirFields cells act) else none

/-- Whether an entry is well-formed (R122). -/
def DirEntry.wellFormed (d : DirEntry) : Bool :=
  1 ≤ d.first && 1 ≤ d.count && d.first + d.count - 1 ≤ 511 && d.length ≤ d.count * 4096

/-- Whether a sector lies in a run of sectors (R122). -/
def inSectors (first count sector : Nat) : Bool := first ≤ sector && sector < first + count

/-! ### Protection (R121) -/

/-- The acts 1 to 8. -/
def acts : List Nat := [1, 2, 3, 4, 5, 6, 7, 8]

/-- Whether an act's flag in the protection table is PROTECTED (R128, R183). -/
def Store.isProtected (st : Store) (act : Nat) : Bool := st.protection.getLsbD (act - 1)

/-- The unit that holds the first bytes of an act's entry (R121). -/
def dirUnit (act : Nat) : Nat := dirAddress act / 16

/-- Whether a sector lies in a protected region (R121): an act's region by its entry, or every sector from 1 to 511
where the entry's unit fails; sector 0 while any act is protected; the loaded region. -/
def Store.sectorProtected (st : Store) (sector : Nat) : Bool :=
  acts.any (fun act => st.isProtected act &&
    (sector = 0 ||
      (if st.unitFails (dirUnit act) then 1 ≤ sector && sector ≤ 511
       else match dirEntry st.cells act with
         | some d => 1 ≤ sector && sector ≤ 511 && inSectors d.first d.count sector
         | none => false))) ||
  (match st.region with
   | some r => inSectors r.first r.count sector
   | none => false)

/-- The check reads of a protection check: the first unit of each protected act's entry (R114, R121), also where another
region decides the check already (DESIGN CHOICE, log 38). -/
def checkReads (s : State) : State :=
  readUnits .protection ((acts.filter s.store.isProtected).map dirUnit) s

end Sys2Proof.Machine
end

