-- ==== Sys2Proof/Machine/Staging.lean ====
section
/-! DEFINITION. Searches over the active cue table (R32, R33), the language map (R36, R37), and text staging: the
staging set, the awaited list and the one read (R39 to R47). -/

namespace Sys2Proof.Machine

/-! ### Searches (R32, R33) -/

/-- The label of a cue of the table. -/
def CueTable.labelOf (t : CueTable) (i : Nat) : Option Label := (t.cues[i]?).map (·.label)

/-- The label of a cue, absent label where there is none (R183). -/
def CueTable.labelAt (t : CueTable) (i : Nat) : Label := (t.labelOf i).getD ⟨0, 0⟩

/-- An index with its label. -/
def CueTable.place (t : CueTable) (i : Nat) : Place := ⟨i, t.labelOf i⟩

/-- The index of the cue with a label, or none for NOT_FOUND (R32). -/
def CueTable.search (t : CueTable) (l : Label) : Option Nat := t.cues.findIdx? (fun c => c.label = l)

/-- The smallest index whose mark is greater than a position, or the count (R33). -/
def CueTable.markSearch (t : CueTable) (p : Nat) : Nat := t.cues.findIdx (fun c => decide (p < c.mark))

/-- The first MARK cue of the indices from a, k of them (R33). -/
def CueTable.markCueFrom (t : CueTable) : Nat → Nat → Option Nat
  | _, 0 => none
  | a, k + 1 =>
    match t.cues[a]? with
    | none => none
    | some c => if c.trigger = .mark then some a else t.markCueFrom (a + 1) k

/-! ### Language map (R36, R37) -/

/-- The map entry of a configured language (R36): the lowest image language with the same code. -/
def mapEntry (code : Option Code) (langs : List Code) : MapEntry :=
  match code with
  | none => .none
  | some c =>
    match langs.findIdx? (· = c) with
    | some m => .served m
    | none => .unserved

/-- The language map built at load success (R36). -/
def buildMap (config : Configuration) (langs : List Code) : Vector MapEntry 6 :=
  Vector.ofFn (fun l : Fin 6 => mapEntry config.languages[l].code langs)

/-- The image language that serves an enabled channel (R37). -/
def servedBy (s : State) (n : Fin 8) : Option Nat :=
  if s.config.channels[n].enabled then
    match s.table.map[s.config.channels[n].language] with
    | .served m => some m
    | _ => none
  else none

/-- Whether READ_STATUS shows a channel unserved (R37). -/
def isUnserved (s : State) (n : Fin 8) : Bool :=
  s.config.channels[n].enabled && decide (s.table.map[s.config.channels[n].language] = .unserved)

/-! ### Choice of the next read (R39, R40) -/

/-- The store address of a key's text entry (R34). -/
def CueTable.textAddress (t : CueTable) (k : Key) : Option Nat :=
  match (t.cues[k.cue]?).bind (fun c => c.slots[k.lang]?) with
  | some (.text a) => some a
  | _ => none

/-- Whether a cue lies in the staging window (R39). -/
def inWindowOf (s : State) (cue : Nat) : Bool :=
  s.firing.pointer ≤ cue && cue ≤ s.firing.pointer + 3 && cue < s.table.cues.length

/-- The TEXT keys of a cue, lowest image language first (R40). -/
def keysOfCue (t : CueTable) (i : Nat) : List Key :=
  (List.range t.langs.length).filterMap (fun m => if (t.textAddress ⟨i, m⟩).isSome then some ⟨i, m⟩ else none)

/-- The wanted keys, lowest cue first (R39, R40). -/
def windowKeys (s : State) : List Key :=
  ((List.range 4).map (fun d => keysOfCue s.table (s.firing.pointer + d))).flatten

/-- The entry the set holds for a key (R39). -/
def Staging.find (g : Staging) (k : Key) : Option Staged := (g.entries.find? (fun e => e.key = k)).map (·.entry)

/-- The key to fetch: the oldest awaited one, or else the lowest missing one (R40). -/
def nextKey (s : State) : Option Key :=
  match s.staging.awaited with
  | a :: _ => some a.key
  | [] => (windowKeys s).find? (fun k => (s.staging.find k).isNone)

/-- The staging logic looks whether to start a read (R40). -/
def stage (s : State) : State :=
  if s.control.show_ = .dark ∨ s.staging.reading.isSome then s
  else match nextKey s with
    | none => s
    | some k =>
      match s.table.textAddress k with
      | none => s
      | some a => joinQueue .staging (s.withStaging { s.staging with reading := some ⟨k, a, false⟩ })

/-! ### Advance, flush, awaited list (R43 to R47) -/

/-- The staging set follows an advance of the pointer (R43). -/
def stagingAdvance (s : State) : State :=
  stage (s.withStaging { s.staging with entries := s.staging.entries.filter (fun e => decide (s.firing.pointer ≤ e.key.cue)) })

/-- The set emptied and an outstanding read made stale (R44). -/
def Staging.flushed (g : Staging) : Staging :=
  { g with entries := [], reading := g.reading.map (fun r => { r with stale := true }) }

/-- A flush (R44). -/
def flush (s : State) : State := stage (s.withStaging s.staging.flushed)

/-- A channel named on a key's awaited entry, which joins the list if it is not there (R45, R46). -/
def Staging.await (g : Staging) (k : Key) (n : Fin 8) : Staging :=
  if g.awaited.any (fun a => a.key = k) then
    { g with awaited := g.awaited.map (fun a => if a.key = k then { a with channels := setWith a.channels n } else a) }
  else { g with awaited := g.awaited ++ [⟨k, setWith 0 n⟩] }

/-- A channel taken off a key's awaited entry; an entry that names no channel leaves the list (R47). -/
def Staging.withdraw (g : Staging) (k : Key) (n : Fin 8) : Staging :=
  let off := g.awaited.map (fun a => if a.key = k then { a with channels := setWithout a.channels n } else a)
  { g with awaited := off.filter (fun a => a.channels ≠ 0) }

/-- A key joins the awaited list for a channel, which can give staging work (R40, R45). -/
def awaitText (k : Key) (n : Fin 8) (s : State) : State := stage (s.withStaging (s.staging.await k n))

/-- An item is a TITLE item without its text (R76). -/
def Item.awaiting (i : Item) : Bool := decide (i.kind = .title) && i.text.isNone

/-- An item awaits a key. -/
def Item.awaits (i : Item) (k : Key) : Bool := i.awaiting && decide (i.cue = k.cue) && decide (i.lang = k.lang)

/-- The key of an item. -/
def Item.key (i : Item) : Key := ⟨i.cue, i.lang⟩

/-- A channel withdraws for the items it has lost whose keys its queue no longer awaits (R47). -/
def withdrawLost (n : Fin 8) (lost : List Item) (s : State) : State :=
  lost.foldl (fun s i =>
    if i.awaiting && !(s.channels[n].queue.any (fun j => j.awaits i.key)) then
      s.withStaging (s.staging.withdraw i.key n)
    else s) s

end Sys2Proof.Machine
end

