-- ==== Sys2Proof/Machine/Channels.lean ====
section
/-! DEFINITION. The channel units: composition and captions with the overlay unit's top level (R90 to R94, R99),
reading time (R78), arrival, release and showing of items (R79 to R89). -/

namespace Sys2Proof.Machine

/-! ### Overlay slots (R98, R99) -/

/-- Whether a level is eligible in a show state (R99). -/
def eligible (show_ : ShowState) (level : Level) : Bool := decide (level = .alert) || decide (show_ ≠ .dark)

/-- The message in a channel's slot at a level (R98). -/
def messageAt (s : State) (n : Fin 8) (level : Level) : Option Placement :=
  s.placements.find? (fun p => decide (p.level = level) && setHas p.channels n)

/-- The message at a channel's top level (R99). -/
def topMessage (s : State) (n : Fin 8) : Option Placement :=
  ([.alert, .house, .slate] : List Level).findSome? (fun level =>
    if eligible s.control.show_ level then messageAt s n level else none)

/-! ### Composed content (R90, R91) -/

/-- What a channel's title layer calls for (R77, R90). -/
def titleContent (c : Channel) : Content :=
  match c.layer with
  | .off => .dark
  | .blank | .gap => .blank
  | .showing | .settled =>
    match c.current with
    | some i => .title i.label ((i.text.map (·.bytes)).getD []) ((i.text.map (·.lines)).getD 1)
    | none => .blank

/-- The composed content of a channel (R90); DARK for a disabled one. -/
def contentOf (s : State) (n : Fin 8) : Content :=
  if s.config.channels[n].enabled then
    match topMessage s n with
    | some p => .message p.level p.bytes p.lines
    | none => titleContent s.channels[n]
  else .dark

/-- Whether two contents come from the same source: DARK, BLANK, the title layer, or one overlay level (R91). -/
def sameSource : Content → Content → Bool
  | .dark, .dark => true
  | .blank, .blank => true
  | .title .., .title .. => true
  | .message a .., .message b .. => a = b
  | _, _ => false

/-- Whether a content is a title (for a different item becoming the current title, R91). -/
def Content.isTitle : Content → Bool
  | .title .. => true
  | _ => false

/-- Whether a content is a message of a level (for a new message at the level on top, R91). -/
def Content.isMessage (level : Level) : Content → Bool
  | .message l .. => l = level
  | _ => false

/-- What happened on a channel that can change its content without changing its source (R91). -/
inductive Arrived where
  | nothing
  | title
  | message (level : Level)
  deriving DecidableEq, Repr

/-- Whether the composed content changes (R91). -/
def contentChanges (old new : Content) (why : Arrived) : Bool :=
  !sameSource old new ||
    (match why with
     | .nothing => false
     | .title => new.isTitle
     | .message level => new.isMessage level)

/-- Whether a screen test withholds a channel's captions (R94). -/
def withheld (s : State) (n : Fin 8) : Bool :=
  match s.tools.running with
  | .test r => r.channel = n
  | _ => false

/-- The next caption number taken, and a caption of the stored content written (R91, R92). -/
def writeCaption (n : Fin 8) (s : State) : State :=
  let c := s.channels[n]
  let k := s.config.channels[n]
  putCaption (captionOf k.address n (c.number + 1) k.lines c.content) (s.withChannel n { c with number := c.number + 1 })

/-- A channel decides its composed content afresh (R90, R91): a change is stored, and written unless the channel is
muted or withheld (R93, R94). -/
def recompose (n : Fin 8) (why : Arrived) (s : State) : State :=
  let content := contentOf s n
  if contentChanges s.channels[n].content content why then
    let s1 := s.withChannel n { s.channels[n] with content := content }
    if s.config.channels[n].muted || withheld s n || !s.config.channels[n].enabled then s1 else writeCaption n s1
  else s

/-! ### Reading time and slip (R78, R88, R89) -/

/-- Minimum reading time in ms (R78). -/
def minimumReading (l : LanguageConfig) (chars : Nat) : Nat := min l.cap (l.base + chars * l.perChar)

/-- A minimum shortened by the catch-up percentage (R78, R80). -/
def caughtUp (l : LanguageConfig) (minimum : Nat) : Nat := ceilDiv (minimum * l.catchUp) 100

/-- Applied minimum: shortened when items wait behind (R78). -/
def appliedMinimum (l : LanguageConfig) (minimum : Nat) (queue : List Item) : Nat :=
  if queue.isEmpty then minimum else caughtUp l minimum

/-- The slip of an item taking effect, in ms (R89). -/
def slipOf (i : Item) (now : Time) : Nat := elapsed i.fired now / 1000

/-- An item takes effect: its slip is measured (R89) and its late mark counted (R88). -/
def takeEffect (n : Fin 8) (i : Item) (s : State) : State :=
  let slip := slipOf i s.clock
  let s1 :=
    if s.config.engine.slip ≤ slip then
      notify (.titleSlip n i.cue i.label i.kind i.resync (millis i.fired) (millis s.clock) slip) s
    else s
  let s2 := s1.withChannel n { s1.channels[n] with slipMax := max s1.channels[n].slipMax slip }
  if i.late then count .textLate s2 else s2

/-- A channel with a title just shown (R78, R83), judging its queue as it stands. -/
def Channel.shows (c : Channel) (l : LanguageConfig) (i : Item) (now : Time) : Channel :=
  let minimum := minimumReading l ((i.text.map (·.chars)).getD 0)
  { c with
    layer := .showing
    current := some i
    shown := some ⟨now, minimum⟩
    reading := some (later now (1000 * appliedMinimum l minimum c.queue)) }

/-- A TITLE item is shown (R83). -/
def showTitle (n : Fin 8) (i : Item) (s : State) : State :=
  takeEffect n i (recompose n .title (s.withChannel n (s.channels[n].shows (s.languageOf n) i s.clock)))

/-- A channel with its current title taken down, in the given state. -/
def Channel.clears (c : Channel) (layer : Layer) : Channel := { c with layer := layer, current := none, shown := none }

/-- A BLANK item takes effect (R81, R82). -/
def takeBlank (n : Fin 8) (i : Item) (s : State) : State :=
  takeEffect n i (recompose n .nothing (s.withChannel n (s.channels[n].clears .blank)))

/-! ### Release (R82) -/

/-- Release of a channel in BLANK or SETTLED, by the table of R82. The fuel is the number of items it may still take. -/
def releaseLoop (n : Fin 8) : Nat → State → State
  | 0, s => s
  | fuel + 1, s =>
    let c := s.channels[n]
    match c.queue with
    | [] => s
    | i :: rest =>
      if c.layer = .blank ∧ ¬ i.resync ∧ isAhead c.reading s.clock then s
      else if i.awaiting then s.withChannel n { c with queue := { i with late := true } :: rest }
      else
        let s1 := s.withChannel n { c with queue := rest }
        match i.kind with
        | .blank => releaseLoop n fuel (takeBlank n i s1)
        | .title =>
          if c.layer = .blank ∨ (s.languageOf n).gap = 0 then showTitle n i s1
          else
            recompose n .nothing (s1.withChannel n { s1.channels[n].clears .gap with
              next := some i, gap := some (later s.clock (1000 * (s.languageOf n).gap)) })

/-- Release, begun only in BLANK and SETTLED (R82). -/
def release (n : Fin 8) (s : State) : State :=
  if s.channels[n].layer = .blank ∨ s.channels[n].layer = .settled then
    releaseLoop n (s.channels[n].queue.length + 1) s
  else s

/-! ### Arrival (R79, R80, R81) -/

/-- A join in SHOWING brings the reading deadline forward; if it is then not ahead, the channel settles and release
begins (R80). -/
def catchUpJoin (n : Fin 8) (s : State) : State :=
  let c := s.channels[n]
  match c.shown, c.reading with
  | some sh, some d =>
    let d1 := earlier d (later sh.at_ (1000 * caughtUp (s.languageOf n) sh.minimum))
    if due d1 s.clock then release n (s.withChannel n { c with layer := .settled, reading := none })
    else s.withChannel n { c with reading := some d1 }
  | _, _ => s

/-- Drop-oldest at a full queue: counted and noticed (R79). -/
def dropOldest (n : Fin 8) (s : State) : State :=
  match s.channels[n].queue with
  | i :: rest =>
    notify (.titleSkipped n i.cue i.label i.kind (millis i.fired) i.awaiting)
      (count .skippedTitles (s.withChannel n { s.channels[n] with queue := rest }))
  | [] => s

/-- An item without the resync flag arrives (R79); whether the channel still awaits a dropped item's key is judged with
the arriving item in the queue (R46, R47; DEDUCED, log 37). -/
def itemJoins (n : Fin 8) (i : Item) (s : State) : State :=
  let full := Config.pendingPlaces ≤ s.channels[n].queue.length
  let lost := if full then s.channels[n].queue.take 1 else []
  let s1 := if full then dropOldest n s else s
  let s2 := s1.withChannel n { s1.channels[n] with queue := s1.channels[n].queue ++ [i] }
  let s3 := withdrawLost n lost s2
  match s3.channels[n].layer with
  | .showing => catchUpJoin n s3
  | .blank | .settled => release n s3
  | .gap | .off => s3

/-- An item with the resync flag arrives (R81); whether the channel still awaits a removed item's key is judged with an
awaiting resync item in the queue (R46, R47; DEDUCED, log 37). -/
def itemResyncs (n : Fin 8) (i : Item) (s : State) : State :=
  let c := s.channels[n]
  let lost := c.queue ++ c.next.toList
  let emptied : Channel := { c with queue := [], next := none, gap := none }
  if i.awaiting then
    let s1 := s.withChannel n { emptied.clears .blank with queue := [i] }
    release n (recompose n .nothing (withdrawLost n lost s1))
  else
    let s1 := withdrawLost n lost (s.withChannel n emptied)
    match i.kind with
    | .title => showTitle n i s1
    | .blank => takeBlank n i s1

/-- An item reaches a channel (R79, R81); an OFF channel discards it and awaits nothing for it (R47). -/
def itemArrives (n : Fin 8) (i : Item) (s : State) : State :=
  if s.channels[n].layer = .off then withdrawLost n [i] s
  else if i.resync then itemResyncs n i s
  else itemJoins n i s

/-! ### Texts (R86, R87) -/

/-- What a delivery makes of an item awaiting the key: its text (R86), or a BLANK item (R87). -/
def Item.delivered (i : Item) : Staged → Item
  | .ready t => { i with text := some t }
  | .failed => { i with kind := .blank }

/-- A text or a failure delivered to a channel (R86, R87). -/
def deliver (k : Key) (result : Staged) (n : Fin 8) (s : State) : State :=
  let c := s.channels[n]
  let headWaits := (c.queue.head?).any (·.awaits k)
  let s1 := s.withChannel n { c with queue := c.queue.map (fun i => if i.awaits k then i.delivered result else i) }
  if headWaits then release n s1 else s1

/-! ### Deadlines (R84, R85) -/

/-- The gap deadline's expiry (R84). -/
def gapExpired (n : Fin 8) (s : State) : State :=
  let c := s.channels[n]
  match c.layer, c.next with
  | .gap, some i => if isDue c.gap s.clock then showTitle n i (s.withChannel n { c with next := none, gap := none }) else s
  | _, _ => s

/-- The reading deadline's expiry (R85). -/
def readingExpired (n : Fin 8) (s : State) : State :=
  let c := s.channels[n]
  if isDue c.reading s.clock then
    match c.layer with
    | .showing => release n (s.withChannel n { c with layer := .settled, reading := none })
    | .blank => release n (s.withChannel n { c with reading := none })
    | .off | .gap | .settled => s.withChannel n { c with reading := none }
  else s

/-! ### Show-state changes (R73, R95) -/

/-- A channel emptied into a state, its reading deadline kept (R73, R95). -/
def Channel.emptied (c : Channel) (layer : Layer) : Channel :=
  { c.clears layer with next := none, queue := [], gap := none }

/-- An enabled channel emptied into a state, deciding its content afresh (R95). -/
def emptyChannel (layer : Layer) (n : Fin 8) (s : State) : State :=
  if s.config.channels[n].enabled then recompose n .nothing (s.withChannel n (s.channels[n].emptied layer)) else s

/-- Every enabled channel emptied into a state (R95), in channel order (DESIGN CHOICE, log 44). -/
def emptyChannels (layer : Layer) (s : State) : State := forChannels (emptyChannel layer) s

end Sys2Proof.Machine
end

