-- ==== Sys2Proof/Machine/Firing.lean ====
section
/-! DEFINITION. The firing unit (chapter Firing Cues): arming, the stacked-mark scan, the fire action, GO frames,
re-seek, and what show-state changes do to the pointer cue. -/

namespace Sys2Proof.Machine

/-! ### Deadlines from the tracker (R15, R16, R52) -/

/-- The projected position now (R15). -/
def projection (s : State) : Nat := s.tracker.projected s.config.engine.horizon s.clock

/-- The deadline the tracker's answer gives for a mark and a lead (R52). -/
def markDeadline (s : State) (mark lead : Nat) : Option Time :=
  match s.tracker.arrival s.config.engine.horizon mark with
  | .reachedAt a => some (sooner a (1000 * lead))
  | .already => some s.clock
  | .noTime => none

/-- Whether a MARK cue would be due if armed now (R52, R54). -/
def markDue (s : State) (c : Cue) : Bool := isDue (markDeadline s c.mark c.lead) s.clock

/-! ### Notices of the firing unit -/

/-- p with its label (R66, R134). -/
def pointerPlace (s : State) : Place := s.table.place s.firing.pointer

/-- lf with its label, if present (R66, R134). -/
def lastPlace (s : State) : Option Place := (s.firing.last).map s.table.place

/-! ### The fire action (R59, R60) -/

/-- The item a fire creates for a channel, with what the staging set answers (R45, R60). -/
def itemFor (s : State) (i : Nat) (lang : Nat) (slot : Slot) (resync : Bool) : Item :=
  let answer := s.staging.find ⟨i, lang⟩
  { cue := i
    label := s.table.labelAt i
    kind := match slot, answer with
      | .blank, _ => .blank
      | _, some .failed => .blank
      | _, _ => .title
    lang := lang
    text := match slot, answer with
      | .text _, some (.ready t) => some t
      | _, _ => none
    fired := s.clock
    resync := resync
    late := false }

/-- The item of one channel created and handed over (R59 step 2, R60). -/
def fireChannel (i : Nat) (resync : Bool) (n : Fin 8) (s : State) : State :=
  match servedBy s n with
  | none => s
  | some lang =>
    match (s.table.cues[i]?).bind (fun c => c.slots[lang]?) with
    | some (.text a) =>
      let item := itemFor s i lang (.text a) resync
      itemArrives n item (if item.awaiting then awaitText ⟨i, lang⟩ n s else s)
    | some .blank => itemArrives n (itemFor s i lang .blank resync) s
    | _ => s

/-- The pointer moves past the fired cue (R59 step 3). -/
def Firing.fired (_f : Firing) (i : Nat) (now : Time) : Firing :=
  { pointer := i + 1, last := some i, previous := some now, trigger := .none, watch := none }

/-- Steps 1 to 6 of the fire action (R59). The staging logic looks for work at the advance and again after a flush that
follows it (R40; DESIGN CHOICE, log 35). -/
def fireCue (i : Nat) (cause : FireCause) (s : State) : State :=
  let s1 := forChannels (fireChannel i (cause = .resync)) s
  let s2 := stagingAdvance (s1.withFiring (s1.firing.fired i s1.clock))
  let s3 := if cause = .back ∨ cause = .resync then flush s2 else s2
  let s4 := notify (.cueFired (s3.table.labelAt i) i cause (millis s3.clock) (projection s3)) s3
  if s4.firing.pointer = s4.table.cues.length then
    notify (.actEnd s4.control.act (s4.table.labelAt i) i (millis s4.clock)) s4
  else s4

/-! ### Stacked-mark scan (R54, R58) -/

/-- The last cue of the run that starts at q: following MARK cues join while they are due (R54). -/
def stackedRun (s : State) : Nat → Nat → Nat
  | 0, q => q
  | fuel + 1, q =>
    match s.table.cues[q + 1]? with
    | some c => if c.trigger = .mark ∧ markDue s c then stackedRun s fuel (q + 1) else q
    | none => q

/-- The cues from the pointer to the one before q are overrun: counted, and named in one OVERRUN notice (R54, R58, R61;
offered before the fire, log 22). -/
def overrun (q : Nat) (s : State) : State :=
  let p := s.firing.pointer
  if p < q then
    notify (.overrun (q - p) (s.table.place p) (s.table.place (q - 1)) (s.table.place q)) (countTimes .overrunCues (q - p) s)
  else s

/-- A due MARK run that starts at a cue fires its last one (R54, R58). -/
def fireRun (start : Nat) (cause : FireCause) (s : State) : State :=
  let q := stackedRun s s.table.cues.length start
  fireCue q cause (overrun q s)

/-! ### Arming (R51, R52, R55, R56, R57) -/

/-- The overrun watch over the pointer cue, with that cue's lead (R57). -/
def watchFor (s : State) (lead : Nat) : Option Watch :=
  if s.config.engine.watchOn then
    (s.table.markCueFrom (s.firing.pointer + 1) s.config.engine.watchWindow).map (fun w =>
      { cue := w, deadline := markDeadline s (((s.table.cues[w]?).map (·.mark)).getD 0) lead })
  else none

/-- The trigger and watch the pointer cue takes when armed (R51 to R57). -/
def armed (s : State) : Firing :=
  let f := s.firing
  match s.table.cues[f.pointer]? with
  | none => { f with trigger := .none, watch := none }
  | some c =>
    match c.trigger with
    | .mark =>
      { f with
        trigger := match markDeadline s c.mark c.lead with
          | some d => .mark d
          | none => .none
        watch := none }
    | .count k =>
      { f with
        trigger := match f.trigger with
          | .count n => .count n
          | _ => .count k
        watch := none }
    | .follow delay =>
      match f.previous with
      | none => { f with trigger := .none, watch := watchFor s c.lead }
      | some t =>
        { f with
          trigger := match f.trigger with
            | .follow d true => .follow d true
            | .paused r => .follow (later s.clock r) true
            | _ => .follow (later t (1000 * delay)) false
          watch := none }
    | .manual => { f with trigger := .none, watch := watchFor s c.lead }

/-- What a trigger or watch at or before the present time makes the firing unit do (R51 step 4). -/
inductive DueFire where
  | nothing
  | mark
  | count
  | follow
  | watch (start : Nat)
  deriving DecidableEq, Repr

/-- What is due (R52, R55, R56, R58). -/
def dueFire (s : State) : DueFire :=
  match s.firing.trigger with
  | .mark d => if due d s.clock then .mark else .nothing
  | .count n => if n = 0 then .count else .nothing
  | .follow d _ => if due d s.clock then .follow else .nothing
  | .paused _ => .nothing
  | .none =>
    match s.firing.watch with
    | some w => if isDue w.deadline s.clock then .watch w.cue else .nothing
    | none => .nothing

/-- The fire that is due, if any, without the arming that follows it. -/
def fireDue (d : DueFire) (s : State) : State :=
  match d with
  | .nothing => s
  | .mark => fireRun s.firing.pointer .mark s
  | .count => fireCue s.firing.pointer .count s
  | .follow => fireCue s.firing.pointer .follow s
  | .watch start => fireRun start .overrun s

/-- Arm the pointer cue, fire it if it is due, and go on with the new pointer cue (R51, R59 step 7). The fuel bounds the
chain: each fire moves the pointer on. -/
def armChain : Nat → State → State
  | 0, s => s
  | fuel + 1, s =>
    let s1 := s.withFiring (armed s)
    match dueFire s1 with
    | .nothing => s1
    | d => armChain fuel (fireDue d s1)

/-- Arming in RUN, with the fires it makes (R51); not done in any other show state. -/
def arm (s : State) : State :=
  if s.control.show_ = .run then armChain (s.table.cues.length + 1) s else s

/-- A fire with the arming of the new pointer cue in RUN (R59). -/
def fire (i : Nat) (cause : FireCause) (s : State) : State := arm (fireCue i cause s)

/-! ### Deadline expiries (R52, R56, R58) -/

/-- The MARK deadline's expiry (R52, R54). -/
def markExpired (s : State) : State :=
  match s.firing.trigger with
  | .mark d => if due d s.clock ∧ s.control.show_ = .run then arm (fireRun s.firing.pointer .mark s) else s
  | _ => s

/-- The FOLLOW deadline's expiry (R56). -/
def followExpired (s : State) : State :=
  match s.firing.trigger with
  | .follow d _ => if due d s.clock ∧ s.control.show_ = .run then fire s.firing.pointer .follow s else s
  | _ => s

/-- The watch deadline's expiry (R58). -/
def watchExpired (s : State) : State :=
  match s.firing.watch with
  | some w => if isDue w.deadline s.clock ∧ s.control.show_ = .run then arm (fireRun w.cue .overrun s) else s
  | none => s

/-! ### HOLD and paused triggers (R71) -/

/-- The paused state of a pointer cue that becomes the pointer in HOLD (R71). -/
def pausedFresh (s : State) : Armed :=
  match (s.table.cues[s.firing.pointer]?).map (fun c : Cue => c.trigger) with
  | some (.count k) => .count k
  | some (.follow delay) =>
    match s.firing.previous with
    | some t =>
      let d := later t (1000 * delay)
      .paused (if due d s.clock then 0 else elapsed s.clock d)
    | none => .none
  | _ => .none

/-- A trigger as HOLD leaves it (R71): a remainder that has run out is 0 (log 33). -/
def pausedTrigger (now : Time) : Armed → Armed
  | .follow d _ => .paused (if due d now then 0 else elapsed now d)
  | .count n => .count n
  | .paused r => .paused r
  | .mark _ => .none
  | .none => .none

/-- The firing unit at HOLD (R71). -/
def pauseFiring (s : State) : State :=
  s.withFiring { s.firing with trigger := pausedTrigger s.clock s.firing.trigger, watch := none }

/-- The pointer placed afresh without a fire: its trigger and watch dropped, and its paused state given in HOLD
(R51, R68, R69, R71). -/
def placePointer (p : Nat) (s : State) : State :=
  let s1 := s.withFiring { s.firing with pointer := p, trigger := .none, watch := none }
  if s1.control.show_ = .hold then s1.withFiring { s1.firing with trigger := pausedFresh s1 } else s1

/-! ### Re-seek (R67, R68) -/

/-- lf and the previous-fire time removed where lf is at or past an index (R67, R68). -/
def Firing.forget (f : Firing) (j : Nat) : Firing :=
  match f.last with
  | some i => if j ≤ i then { f with last := none, previous := none } else f
  | none => f

/-- A re-seek without a fire: pointer, lf, and a flush (R67 step 3, R68). -/
def reseekQuietly (j : Nat) (s : State) : State := flush (placePointer j (s.withFiring (s.firing.forget j)))

/-- A re-seek to a position (R67, R68). -/
def reseek (pos : Nat) (s : State) : State :=
  let j := s.table.markSearch pos
  if s.control.show_ = .run ∧ 1 ≤ j ∧ s.firing.last ≠ some (j - 1) then fire (j - 1) .resync s
  else if s.control.show_ = .run then arm (reseekQuietly j s)
  else reseekQuietly j s

/-! ### Events from the tracker (R51, R55) -/

/-- Whether a report event counts beats (R55): "events taken in LOST" is read as those whose state before was LOST, so a
report that causes a loss counts if its kind does (DEDUCED, log 21). -/
def ReportEvent.counts (e : ReportEvent) : Bool :=
  (decide (e.kind = .normal) || decide (e.kind = .holdEnd)) &&
    (decide (e.before = .locked) || decide (e.before = .coasting) || decide (e.before = .held))

/-- The COUNT counter consulted at a report event; it keeps its value while the tracker's settle flag is set (R55). The
report that clears the flag counts from the old anchor of its event, also where a HOLD report has moved the anchor on
from the jump position (DEDUCED, log 43). -/
def consultCount (e : ReportEvent) (s : State) : State :=
  match s.firing.trigger with
  | .count n =>
    if e.counts ∧ s.tracker.settle = false ∧ s.control.show_ = .run then
      s.withFiring { s.firing with trigger := .count (n - (beats e.newPos - beats e.oldPos)) }
    else s
  | _ => s

/-- A report event handed to the firing unit (R51). -/
def onReport (e : ReportEvent) (s : State) : State :=
  let s1 := match e.reseek with
    | some p => reseek p s
    | none => s
  arm (if e.reseek.isSome then s1 else consultCount e s1)

/-! ### GO frames (R62 to R66) -/

/-- p and lf as a GO found them when it was taken, each with its label (R66). -/
structure Found where
  pointer : Place
  last : Option Place
  deriving DecidableEq, Repr

/-- p and lf as they stand. -/
def found (s : State) : Found := { pointer := pointerPlace s, last := lastPlace s }

/-- A GO ignored with its reason (R66), counted when LATE (R63); the show state is the one it is handled in (log 29). -/
def ignoreGo (reason : GoReason) (target : Label) (back : Bool) (f : Found) (s : State) : State :=
  let s1 := if reason = .late then count .lateGo s else s
  notify (.goIgnored reason target back s.control.show_ f.pointer f.last (millis s.clock)) s1

/-- A GO in RUN without BACK (R63). -/
def goForward (target : Label) (f : Found) (s : State) : State :=
  let p := s.firing.pointer
  if target.number = 0 then
    if p < s.table.cues.length then fire p .go s else ignoreGo .atEnd target false f s
  else match s.table.search target with
    | none => ignoreGo .unknown target false f s
    | some i =>
      if i = p then fire i .go s
      else if p < i then fire i .goSkip s
      else ignoreGo .late target false f s

/-- A GO in RUN with BACK (R65). -/
def goBack (target : Label) (f : Found) (s : State) : State :=
  if target.number = 0 then
    match s.firing.last with
    | some (k + 1) => fire k .back s
    | _ => ignoreGo .range target true f s
  else match s.table.search target with
    | none => ignoreGo .unknown target true f s
    | some i =>
      match s.firing.last with
      | some lf => if i ≤ lf then fire i .back s else ignoreGo .range target true f s
      | none => ignoreGo .range target true f s

/-- A GO handled in RUN (R62). -/
def goInRun (target : Label) (back : Bool) (f : Found) (s : State) : State :=
  if back then goBack target f s else goForward target f s

end Sys2Proof.Machine
end

