-- ==== Sys2Proof/Machine/Tools.lean ====
section
/-! DEFINITION. The tools (chapter Chain Census and Screen Test): census (R174 to R177) and screen test (R178 to R180),
with the form in which a block answers a request (R164). -/

namespace Sys2Proof.Machine

/-! ### Replies (R163, R164) -/

/-- What handling a request comes to: an answer with its result and data, or, for READ_STORE alone, waiting for its
read (R163). -/
inductive Reply where
  | answer (s : State) (result : Result) (data : List Byte)
  | waiting (s : State)

/-- STATE and BUSY carry the show state in their data (R164). -/
def showData (s : State) : List Byte := be 1 s.control.show_.code

/-- A request refused, with nothing changed (R164). -/
def refuse (s : State) (result : Result) : Reply :=
  match result with
  | .state => .answer s .state (showData s)
  | .busy => .answer s .busy (showData s)
  | _ => .answer s result []

/-- The response placed, which ends the handling (R163); notices of the request's effects are offered first (log 7,
log 8). -/
def respond (g : Handling) (result : Result) (data : List Byte) (s : State) : State :=
  let s1 := offerHalves s
  placeResponse { dest := g.source, code := g.code, tag := g.tag, result := result, data := data }
    (s1.withManagement { s1.management with handling := none })

/-- Whether a tool runs (R173). -/
def toolRuns (s : State) : Bool := decide (s.tools.running ≠ .none)

/-! ### Census (R174 to R177) -/

/-- CENSUS (R173, R174). -/
def doCensus (tag : Byte) (s : State) : Reply :=
  if s.control.show_ ≠ .dark ∧ s.control.show_ ≠ .preset then refuse s .state
  else if toolRuns s then refuse s .busy
  else
    let id := s.tools.id + 1
    let s1 := s.withTools
      { running := .census tag (later s.clock (1000 * s.config.engine.censusWindow)), id := id, list := [],
        overflow := false, result := .none }
    .answer (offerTool (.probe id true) s1) .accepted []

/-- An entry inserted after every entry of lower or equal hop (R175). -/
def insertEntry (e : CensusEntry) : List CensusEntry → List CensusEntry
  | [] => [e]
  | x :: rest => if x.hop ≤ e.hop then x :: insertEntry e rest else e :: x :: rest

/-- An ANSWER reaches the census (R175, R186). -/
def takeAnswer (source : Byte) (payload : List Byte) (s : State) : State :=
  let t := s.tools
  match t.running with
  | .census .. =>
    if fieldByte payload 0 ≠ t.id then s
    else if t.list.any (fun e => e.address = source) then
      s.withTools { t with list := t.list.map (fun e => if e.address = source then { e with conflict := true } else e) }
    else if Config.censusPlaces ≤ t.list.length then s.withTools { t with overflow := true }
    else s.withTools { t with list := insertEntry ⟨source, fieldByte payload 1, false⟩ t.list }
  | _ => s

/-- Whether an enabled channel's address has an entry in the census list (R176). -/
def answered (s : State) (n : Fin 8) : Bool := s.tools.list.any (fun e => e.address = s.config.channels[n].address)

/-- The present flags at a census window's end (R176). -/
def markPresent (n : Fin 8) (s : State) : State :=
  if s.config.channels[n].enabled then
    s.withChannel n { s.channels[n] with present := if answered s n then .found else .missing }
  else s

/-- The census window's expiry (R176). -/
def censusExpired (s : State) : State :=
  match s.tools.running with
  | .census tag deadline =>
    if due deadline s.clock then
      let found := channelsWhere (fun n => s.config.channels[n].enabled && answered s n)
      let missing := channelsWhere (fun n => s.config.channels[n].enabled && !answered s n)
      let failed := decide (missing ≠ 0) || s.tools.list.any (·.conflict)
      let s1 := forChannels markPresent s
      let s2 := leaveTool (s1.withTools { s1.tools with
        running := .none, result := if failed then .fail else .pass })
      notify (.opDone .census tag (if failed then .fail else .pass)
        ([s2.tools.id] ++ be 1 s2.tools.list.length ++ yes s2.tools.overflow ++ [found] ++ [missing])) s2
    else s
  | _ => s

/-- READ_CENSUS (R177). -/
def doReadCensus (s : State) : Reply :=
  let t := s.tools
  let running := match t.running with
    | .census .. => true
    | _ => false
  .answer s .ok ([t.id] ++ yes running ++ be 1 t.result.code ++ yes t.overflow ++ be 1 t.list.length ++
    (t.list.map (fun e => [e.address, e.hop] ++ yes e.conflict)).flatten)

/-! ### Screen test (R178 to R180) -/

/-- SCREEN_TEST (R173, R178). -/
def doScreenTest (tag channel : Byte) (count : BitVec 16) (length : Byte) (gap : BitVec 16) (mode : Byte) (s : State) :
    Reply :=
  if h : channel.toNat < 8 then
    let n : Fin 8 := ⟨channel.toNat, h⟩
    if s.config.channels[n].enabled ∧ 1 ≤ length.toNat ∧ length.toNat ≤ 200 ∧ 1 ≤ gap.toNat ∧ gap.toNat ≤ 1000 ∧
        (mode = 0 ∨ mode = 1) then
      if s.control.show_ ≠ .dark ∧ s.control.show_ ≠ .preset then refuse s .state
      else if toolRuns s then refuse s .busy
      else
        let r : TestRecord :=
          { tag := tag, channel := n, count := count.toNat, length := length.toNat, gap := gap.toNat,
            mode := if mode = 0 then .single else .continuous, sent := 0, expected := 0, good := 0, bad := 0,
            missed := 0, errors := 0, gapDeadline := none, endDeadline := none }
        let s1 := s.withTools { s.tools with running := .test r }
        .answer (offerTool (.test n 0 r.length true) s1) .accepted []
    else refuse s .range
  else refuse s .range

/-- A running test with its record replaced. -/
def withTest (r : TestRecord) (s : State) : State := s.withTools { s.tools with running := .test r }

/-- The transmission of a running test's frame has completed: the gap to the next frame, or after the count-th the
100 ms to the end (R178, R180). -/
def testFrameSent (s : State) : State :=
  match s.tools.running with
  | .test r =>
    if r.count ≠ 0 ∧ r.count ≤ r.sent then withTest { r with endDeadline := some (later s.clock 100000) } s
    else withTest { r with gapDeadline := some (later s.clock (1000 * r.gap)) } s
  | _ => s

/-- The gap after a TEST frame has passed: the next frame is offered (R178). -/
def testGapExpired (s : State) : State :=
  match s.tools.running with
  | .test r =>
    if isDue r.gapDeadline s.clock then
      offerTool (.test r.channel r.sent r.length true) (withTest { r with gapDeadline := none } s)
    else s
  | _ => s

/-- Saturating total of a test (R179). -/
def total (a d : Nat) : Nat := min (a + d) 4294967295

/-- Errors added to a test's error count (R179): SINGLE saturates, CONTINUOUS wraps with a notice for each passage. -/
def addErrors (d : Nat) (s : State) : State :=
  match s.tools.running with
  | .test r =>
    match r.mode with
    | .single => withTest { r with errors := min (r.errors + d) 255 } s
    | .continuous =>
      (List.replicate ((r.errors + d) / 256) ()).foldl
        (fun s _ => notify (.testErrors r.channel (millis s.clock)) s)
        (withTest { r with errors := (r.errors + d) % 256 } s)
  | _ => s

/-- Whether a sequence number is that of a frame already sent (R179). -/
def alreadySent (r : TestRecord) (q : Nat) : Bool := q < r.sent || 65536 ≤ r.sent

/-- A TEST echo reaches the checker (R179, R186). -/
def takeEcho (payload : List Byte) (s : State) : State :=
  match s.tools.running with
  | .test r =>
    let q := fieldNat payload 0 2
    let d := (q + 65536 - r.expected) % 65536
    let intact := decide (payload.drop 2 = testBytes q r.length)
    if 32768 ≤ d then s
    else if ¬ alreadySent r q then addErrors 1 (withTest { r with bad := total r.bad 1 } s)
    else
      let r1 := { r with
        missed := total r.missed d
        good := if intact then total r.good 1 else r.good
        bad := if intact then r.bad else total r.bad 1
        expected := (q + 1) % 65536 }
      addErrors (d + (if intact then 0 else 1)) (withTest r1 s)
  | _ => s

/-- A test ends with a cause: OP_DONE, then the channel's caption unless it is muted or disabled (R94, R180). -/
def endTest (r : TestRecord) (cause : DoneResult) (s : State) : State :=
  let s1 := leaveTool (s.withTools { s.tools with running := .none })
  let s2 := notify (.opDone .test r.tag cause
    (be 1 r.channel ++ be 4 r.sent ++ be 4 r.good ++ be 4 r.bad ++ be 4 r.missed ++ be 1 r.errors)) s1
  let k := s2.config.channels[r.channel]
  if k.muted || !k.enabled then s2 else writeCaption r.channel s2

/-- The completion of a test (R180). -/
def testCompleted (s : State) : State :=
  match s.tools.running with
  | .test r => if isDue r.endDeadline s.clock then endTest r .complete s else s
  | _ => s

/-- STOP_TEST (R180); its data says whether a test was running. -/
def doStopTest (s : State) : Reply :=
  match s.tools.running with
  | .test r => .answer (endTest r .stopped s) .ok (yes true)
  | _ => .answer s .ok (yes false)

end Sys2Proof.Machine
end

