-- ==== Sys2Proof/Machine/Control.lean ====
section
/-! DEFINITION. The show controller (chapter Show States): START, HOLD, RESUME, STOP, UNLOAD, the restart and power
(R133 to R145, R131, R160), and what the tracker hands on (R27). -/

namespace Sys2Proof.Machine

/-- One SHOW_STATE notice of a change just made (R134). -/
def showNotice (previous : ShowState) (cause : ShowCause) (tag : Option Byte) (s : State) : State :=
  notify (.showState previous s.control.show_ cause tag s.control.act (pointerPlace s) (lastPlace s) (millis s.clock)) s

/-- The show state replaced (R133). -/
def setShow (show_ : ShowState) (s : State) : State := s.withControl { s.control with show_ := show_ }

/-- Several notices offered in order. -/
def notifyAll (ns : List Notice) (s : State) : State := ns.foldl (fun s n => notify n s) s

/-! ### Tracker into engine (R27, R28) -/

/-- What the tracker hands on for a report: its counts, its notices, then its event (R27, R28). -/
def track (out : Tracked) (s : State) : State :=
  let s1 := countTimes .rateReject out.rejects (countTimes .seqGap out.gaps (s.withTracker out.tracker))
  let s2 := notifyAll out.notices s1
  match out.event with
  | some e => onReport e s2
  | none => s2

/-- A POS frame taken at its arrival time; discarded in DARK (R7). -/
def takePos (seq : Byte) (payload : List Byte) (s : State) : State :=
  if s.control.show_ = .dark then s
  else track (takeReport s.config.engine s.tracker (reportOf seq payload s.clock)) s

/-- A tracker deadline's effect: the tracker, its notices, and the rearming of a deadline event (R27, R51). -/
def trackDeadline (out : Tracker × List Notice × Bool) (s : State) : State :=
  let s1 := notifyAll out.2.1 (s.withTracker out.1)
  if out.2.2 then arm s1 else s1

/-- The silence deadline's expiry (R23). -/
def silenceExpiry (s : State) : State :=
  match s.tracker.silence with
  | some d => if due d s.clock then trackDeadline (silenceExpired s.config.engine s.tracker d) s else s
  | none => s

/-- The horizon deadline's expiry (R17). -/
def horizonExpiry (s : State) : State :=
  match s.tracker.horizon with
  | some d => if due d s.clock then trackDeadline (horizonExpired s.tracker d) s else s
  | none => s

/-- The tracker reset by STOP or UNLOAD, with FOLLOW_STATE of cause RESET if it was not IDLE (R5, R28). -/
def resetTracker (beat : Nat) (s : State) : State :=
  let k := s.tracker.resetTo beat s.clock
  notifyAll (followNotice s.tracker.follow k .reset s.clock) (s.withTracker k)

/-! ### Changes of show state (R136 to R140) -/

/-- The enabled, unmuted channels whose present flag is MISSING (R136). -/
def missingChannels (s : State) : ChannelSet :=
  channelsWhere (fun n =>
    s.config.channels[n].enabled && !s.config.channels[n].muted && decide (s.channels[n].present = .missing))

/-- START (R136); the data of MISSING is the set of the failing channels (R183, log 19). -/
def doStart (tag force : Byte) (s : State) : Reply :=
  if s.control.show_ ≠ .preset then refuse s .state
  else if toolRuns s then refuse s .state
  else if ¬ flagByte force ∧ missingChannels s ≠ 0 then .answer s .missing [missingChannels s]
  else .answer (arm (showNotice .preset .start (some tag) (setShow .run s))) .ok []

/-- HOLD (R71, R137). -/
def doHold (tag : Byte) (s : State) : Reply :=
  if s.control.show_ ≠ .run then refuse s .state
  else .answer (showNotice .run .hold (some tag) (pauseFiring (setShow .hold s))) .ok []

/-- The show leaves HOLD for RUN (R72, R138). -/
def resumeShow (cause : ShowCause) (tag : Option Byte) (s : State) : State :=
  arm (showNotice .hold cause tag (setShow .run s))

/-- RESUME (R138). -/
def doResume (tag : Byte) (s : State) : Reply :=
  if s.control.show_ ≠ .hold then refuse s .state else .answer (resumeShow .resume (some tag) s) .ok []

/-- STOP's effect on the blocks (R139). -/
def stopShow (tag : Byte) (s : State) : State :=
  let previous := s.control.show_
  let s1 := resetTracker (s.table.beat.getD s.tracker.beat) (setShow .preset s)
  let s2 := s1.withFiring Firing.initial
  let s3 := stage (s2.withStaging { s2.staging.flushed with awaited := [] })
  showNotice previous .stop (some tag) (emptyChannels .blank s3)

/-- STOP (R139). -/
def doStop (tag : Byte) (s : State) : Reply :=
  if s.control.show_ ≠ .run ∧ s.control.show_ ≠ .hold then refuse s .state else .answer (stopShow tag s) .ok []

/-- UNLOAD's effect on the blocks (R108, R140). -/
def unloadShow (tag : Byte) (s : State) : State :=
  let previous := s.control.show_
  let s1 := resetTracker s.tracker.beat (s.withControl { s.control with show_ := .dark, act := none })
  let s2 := (s1.withTable CueTable.empty).withFiring Firing.initial
  let s3 := s2.withStaging { s2.staging.flushed with awaited := [] }
  let s4 := s3.withPlacements (s3.placements.filter (fun p => p.level = .alert))
  let s5 := (emptyChannels .off s4)
  let s6 := s5.withStore { s5.store with region := none }
  showNotice previous .unload (some tag) s6

/-- UNLOAD (R140, R165). -/
def doUnload (tag confirm : Byte) (s : State) : Reply :=
  if confirm ≠ 255 - requestCode .unload then refuse s .confirm
  else if s.control.show_ = .dark then refuse s .state
  else .answer (unloadShow tag s) .ok []

/-- SET_POINTER (R69). -/
def doSetPointer (label : Label) (s : State) : Reply :=
  if s.control.show_ ≠ .preset ∧ s.control.show_ ≠ .hold then refuse s .state
  else
    match (if label.number = 0 then some 0 else s.table.search label) with
    | none => refuse s .range
    | some i => .answer (flush (placePointer i (s.withFiring { s.firing with last := none, previous := none }))) .ok []

/-! ### GO frames (R62) -/

/-- A GO frame taken (R62, R138, R186). -/
def takeGo (payload : List Byte) (s : State) : State :=
  let target := labelAt payload 0
  let back := (fieldByte payload 3).getLsbD 0
  match s.control.show_ with
  | .run => goInRun target back (found s) s
  | .hold =>
    if s.config.engine.goReleases then goInRun target back (found s) (resumeShow .go none s)
    else ignoreGo .state target back (found s) s
  | .dark | .preset => ignoreGo .state target back (found s) s

/-! ### Restart (R132, R141, R160) -/

/-- An operation that a RESTART carries through, and not one it abandons (R132). -/
def StoreOp.carried : StoreOp → Bool
  | .program .. | .erase _ | .protect _ | .unprotect _ => true
  | .verify _ | .checksum .. | .load _ => false

/-- RESTART (R132, R141): reads end without results, a verify, checksum or load is abandoned, a suspended erase is
resumed, and from its answer on no request is taken. The staging logic asks for no new read here (R40; DESIGN CHOICE,
log 42). -/
def doRestart (confirm : Byte) (s : State) : Reply :=
  if confirm ≠ 255 - requestCode .restart then refuse s .confirm
  else
    let s1 := s.withStore { s.store with
      queue := [], suspended := false, flight := s.store.flight.filter (fun f => f.op.carried), reads := 0 }
    let s2 := s1.withStaging { s1.staging with reading := none }
    let s3 := s2.withControl { s2.control with loading := false }
    .answer (s3.withManagement { s3.management with restart := .waiting }) .ok []

/-- An enabled channel writes its DARK caption with number 1, muted or not (R96). -/
def darkCaption (n : Fin 8) (s : State) : State :=
  let k := s.config.channels[n]
  if k.enabled then
    putCaption (captionOf k.address n 1 k.lines .dark) (s.withChannel n { s.channels[n] with number := 1 })
  else s

/-- Every block at its power-up values with configuration, VALID, address, nonvolatile contents and the frames in
transmission kept (R141 step 4, R160). -/
def restarted (s : State) : State :=
  let fresh := State.poweredUp s.straps s.store.cells s.store.protection
  { fresh with
    pending := s.pending
    powered := s.powered
    config := s.config
    store := { fresh.store with faults := s.store.faults }
    management := { fresh.management with valid := s.management.valid }
    link := { fresh.link with
      address := s.link.address
      sendingU := s.link.sendingU
      sendingD := s.link.sendingD.map (fun x => { x with tool := x.tool.map ToolFrame.ended }) } }

/-- The restart takes effect, when its response has been sent and no carried operation is left (R141, R160). -/
def restartEffect (s : State) : State :=
  if s.management.restart = .sent ∧ s.store.flight = none then
    let s1 := forChannels darkCaption (restarted s)
    if s.control.show_ = .dark then s1 else showNotice s.control.show_ .restart none s1
  else s

/-! ### Power (R131, R142) -/

/-- What an interrupted operation leaves in the cells (R131). -/
def cutCells (cut : Interrupt) (st : Store) : Cells :=
  match st.flight with
  | some ⟨.program a data, _⟩ => st.cells.programSome a data cut.reached
  | some ⟨.erase sector, _⟩ => st.cells.eraseSome sector cut.reached
  | _ => st.cells

/-- The protection table with an act's flag given a value (R128). -/
def setFlag (table : BitVec 8) (act : Nat) (value : Bool) : BitVec 8 :=
  if value then table ||| (1#8 <<< (act - 1)) else table &&& ~~~(1#8 <<< (act - 1))

/-- What an interrupted update leaves in the protection table (R131). -/
def cutProtection (cut : Interrupt) (st : Store) : BitVec 8 :=
  match st.flight with
  | some ⟨.protect act, _⟩ => if cut.flagReached then setFlag st.protection act true else st.protection
  | some ⟨.unprotect act, _⟩ => if cut.flagReached then setFlag st.protection act false else st.protection
  | _ => st.protection

/-- The engine without power: the store and the protection table as the interruption left them, everything volatile
gone (R131; log 11). -/
def powerLost (cut : Interrupt) (s : State) : State :=
  { State.poweredUp s.straps (cutCells cut s.store) (cutProtection cut s.store) with
    pending := s.pending
    powered := false }

/-- Power-up reset: the straps are sampled and every block takes its power-up values (R142, R147); an operation that was
in flight was interrupted (R131). -/
def powerGained (straps : BitVec 4) (cut : Interrupt) (s : State) : State :=
  { State.poweredUp straps (cutCells cut s.store) (cutProtection cut s.store) with pending := s.pending }

end Sys2Proof.Machine
end

