-- ==== Sys2Proof/Machine/Messages.lean ====
section
/-! DEFINITION. The overlay unit (chapter Overlay Messages): placing, clearing and expiry of messages (R98 to R106). -/

namespace Sys2Proof.Machine

/-- Channels leave the placements of a level; a placement left with none is removed (R98). -/
def leavePlacements (level : Level) (set : ChannelSet) (ps : List Placement) : List Placement :=
  (ps.map (fun p => if p.level = level then { p with channels := p.channels &&& ~~~set } else p)).filter
    (fun p => p.channels ≠ 0)

/-- Each channel of a set is told its top level (R99, R101, R104, R105), in channel order (R102, R104; elsewhere DESIGN
CHOICE, log 44). -/
def tellChannels (set : ChannelSet) (why : Arrived) (s : State) : State :=
  forChannels (fun n s => if setHas set n then recompose n why s else s) s

/-- The applied duration in seconds (R103). -/
def appliedDuration (duration : Nat) : Nat := min duration 600

/-- The expiry deadline of a message placed now (R103). -/
def expiryOf (now : Time) (duration : Nat) : Option Time :=
  if duration = 0 then none else some (later now (1000000 * appliedDuration duration))

/-- The channels a message is placed on (R101, R102). -/
def placementSet (level : Level) (mask : ChannelSet) (s : State) : ChannelSet :=
  channelsWhere (fun n => s.config.channels[n].enabled && (decide (level = .alert) || setHas mask n))

/-- A new placement, its channels leaving their older ones, and each told its top level (R101 steps 2 to 4). -/
def placeMessage (tag : Byte) (level : Level) (set : ChannelSet) (duration : Nat) (text : List Byte) (s : State) : State :=
  let p : Placement :=
    { tag := tag, level := level, bytes := text, lines := lineBreaks text + 1, placed := s.clock,
      expiry := expiryOf s.clock duration, channels := set }
  tellChannels set (.message level) (s.withPlacements (leavePlacements level set s.placements ++ [p]))

/-- SHOW_MESSAGE (R100 to R103). -/
def doShowMessage (tag confirm level mask : Byte) (duration : BitVec 16) (text : List Byte) (s : State) : Reply :=
  match levelOf level with
  | none => refuse s .range
  | some l =>
    if l = .alert ∧ confirm ≠ 0xDF then refuse s .confirm
    else if l ≠ .alert ∧ s.control.show_ = .dark then refuse s .state
    else if 160 < text.length then refuse s .range
    else if l ≠ .alert ∧ mask = 0 then refuse s .range
    else
      let set := placementSet l mask s
      let d := duration.toNat
      .answer (if set = 0 then s else placeMessage tag l set d text s) .ok
        ([level, set] ++ be 2 (appliedDuration d) ++ yes (decide (600 < d)))

/-- The channels a clear removes a message from (R104). -/
def clearedSet (level : Level) (mask : ChannelSet) (s : State) : ChannelSet :=
  channelsWhere (fun n => (messageAt s n level).isSome && (decide (level = .alert) || setHas mask n))

/-- CLEAR_MESSAGE (R104). -/
def doClearMessage (confirm level mask : Byte) (s : State) : Reply :=
  match levelOf level with
  | none => refuse s .range
  | some l =>
    if l = .alert ∧ confirm ≠ 0xDE then refuse s .confirm
    else if l ≠ .alert ∧ mask = 0 then refuse s .range
    else
      let set := clearedSet l mask s
      .answer (tellChannels set .nothing (s.withPlacements (leavePlacements l set s.placements))) .ok [level, set]

/-- The expiry of the placement at a place of the list (R105; log 28). -/
def messageExpired (i : Nat) (s : State) : State :=
  match s.placements[i]? with
  | none => s
  | some p =>
    match p.expiry with
    | none => s
    | some d =>
      if due d s.clock then
        tellChannels p.channels .nothing
          (notify (.messageExpired p.level p.tag p.channels (millis p.placed) (millis d))
            (s.withPlacements (s.placements.eraseIdx i)))
      else s

end Sys2Proof.Machine
end

