-- ==== Sys2Proof/Machine/Images.lean ====
section
/-! DEFINITION. The act image (R187) and the load checks over it (R126): header, records, text entries; and the units
that a load, a verify or a checksum reads, one at a time (R114). -/

namespace Sys2Proof.Machine

/-- What the header of an image gives (R187). -/
structure ImageHeader where
  langs : List Code
  cues : Nat
  beat : Nat
  records : Nat
  pool : Nat
  poolLength : Nat
  deriving DecidableEq, Repr

/-- Bytes of one cue record (R187). -/
def ImageHeader.recordSize (h : ImageHeader) : Nat := 11 + 4 * h.langs.length

/-- Whether a run of bytes lies within another length. -/
def fits (offset length within : Nat) : Bool := decide (offset + length ≤ within)

/-- Whether two runs share no byte; an empty run shares none (log 26). -/
def apart (a aLength b bLength : Nat) : Bool :=
  aLength = 0 || bLength = 0 || a + aLength ≤ b || b + bLength ≤ a

/-- The header of an image, or none where check 4 of R126 fails; an image too short for its header fails too (log 26). -/
def headerOf (image : List Byte) (cues : Nat) : Option ImageHeader :=
  let m := (fieldByte image 0).toNat
  let h : ImageHeader :=
    { langs := (List.range m).map (fun i => BitVec.ofNat 24 (fieldNat image (1 + 3 * i) 3))
      cues := fieldNat image 19 2
      beat := fieldNat image 21 3
      records := fieldNat image 24 4
      pool := fieldNat image 28 4
      poolLength := fieldNat image 32 4 }
  let recordsLength := h.cues * (11 + 4 * m)
  if 36 ≤ image.length ∧ 1 ≤ m ∧ m ≤ 6 ∧ h.cues = cues ∧ Config.beatMin ≤ h.beat ∧ h.beat ≤ Config.beatMax ∧
      fits h.records recordsLength image.length ∧ fits h.pool h.poolLength image.length ∧
      apart h.records recordsLength h.pool h.poolLength
  then some h else none

/-- Whether a text entry at an offset of the pool passes the checks of R126. -/
def textPasses (image : List Byte) (h : ImageHeader) (offset : Nat) : Bool :=
  let length := (fieldByte image (h.pool + offset)).toNat
  let chars := (fieldByte image (h.pool + offset + 1)).toNat
  let lines := (fieldByte image (h.pool + offset + 2)).toNat
  fits offset 3 h.poolLength && fits offset (3 + length) h.poolLength && length ≤ 200 && chars ≤ 200 && chars ≤ length &&
    1 ≤ lines && lines ≤ 3 && lines = lineBreaks (field image (h.pool + offset + 3) length) + 1

/-- A language slot at a place of the image, its text reference made a store address (R34, R126, R187). -/
def slotOf (image : List Byte) (base : Nat) (h : ImageHeader) (place : Nat) : Option Slot :=
  match (fieldByte image place).toNat with
  | 0 => some .absent
  | 1 =>
    let offset := fieldNat image (place + 1) 3
    if textPasses image h offset then some (.text (base + h.pool + offset)) else none
  | 2 => some .blank
  | _ => none

/-- The trigger of a record, or none where its kind or parameter fails (R126, R187). -/
def triggerOf (kind parameter : Nat) : Option Trigger :=
  match kind with
  | 0 => some .manual
  | 1 => some .mark
  | 2 => if 1 ≤ parameter ∧ parameter ≤ 64 then some (.count parameter) else none
  | 3 => if parameter ≤ 60000 then some (.follow parameter) else none
  | _ => none

/-- Whether a label is one a cue may have (R30). -/
def labelOk (l : Label) : Bool :=
  1 ≤ l.number.toNat && l.number.toNat ≤ 9999 && (l.suffix = 0 || (0x41 ≤ l.suffix.toNat && l.suffix.toNat ≤ 0x5A))

/-- Some of every element, or none where one is missing. -/
def everySlot : List (Option Slot) → Option (List Slot)
  | [] => some []
  | none :: _ => none
  | some x :: rest => (everySlot rest).map (x :: ·)

/-- Record i of an image, or none where a check on the record alone fails (R126). -/
def cueOf (image : List Byte) (base : Nat) (h : ImageHeader) (i : Nat) : Option Cue :=
  let place := h.records + i * h.recordSize
  let label := labelAt image place
  let lead := fieldNat image (place + 9) 2
  match triggerOf (fieldByte image (place + 3)).toNat (fieldNat image (place + 7) 2),
      everySlot ((List.range h.langs.length).map (fun k => slotOf image base h (place + 11 + 4 * k))) with
  | some trigger, some slots =>
    if labelOk label ∧ lead ≤ 5000 then
      some { label := label, trigger := trigger, mark := fieldNat image (place + 4) 3, lead := lead, slots := slots }
    else none
  | _, _ => none

/-- Whether a record may follow those before it: a new label, and a mark not before theirs (R126). -/
def follows (before : List Cue) (c : Cue) : Bool :=
  before.all (fun x => x.label ≠ c.label) && before.getLast?.all (fun x => x.mark ≤ c.mark)

/-- What reading the records comes to: the cues, or the index of the first failing record (R126). -/
inductive Records where
  | good (cues : List Cue)
  | failing (index : Nat)
  deriving DecidableEq, Repr

/-- The next k records after those already read, in index order (R126). -/
def recordsFrom (image : List Byte) (base : Nat) (h : ImageHeader) : Nat → List Cue → Records
  | 0, before => .good before
  | k + 1, before =>
    match cueOf image base h before.length with
    | none => .failing before.length
    | some c => if follows before c then recordsFrom image base h k (before ++ [c]) else .failing before.length

/-- How a load ends (R126, R127). -/
inductive LoadEnd where
  | success (region : Region) (langs : List Code) (beat : Nat) (cues : List Cue)
  | noAct
  | corrupt (index : Option Nat)
  | check
  | ecc (address : Nat)
  deriving DecidableEq, Repr

/-- Checks 4 and 5 of R126 over an image. -/
def imageEnd (image : List Byte) (d : DirEntry) : LoadEnd :=
  match headerOf image d.cues with
  | none => .corrupt none
  | some h =>
    match recordsFrom image (d.first * 4096) h h.cues [] with
    | .failing i => .corrupt (some i)
    | .good cues => .success ⟨d.first, d.count⟩ h.langs h.beat cues

/-- The units of an act's image (R126). -/
def DirEntry.units (d : DirEntry) : List Nat := unitsOf (d.first * 4096) d.length

/-- The bytes of an act's image (R122, R126). -/
def DirEntry.image (d : DirEntry) (cells : Cells) : List Byte := cells.run (d.first * 4096) d.length

/-- Whether an entry passes check 2 of R126. -/
def DirEntry.loadable (d : DirEntry) : Bool := d.wellFormed && 1 ≤ d.cues && d.cues ≤ 1024

/-- How the load of an act ends when every unit it reads is sound (R126), each read once (log 16). -/
def loadEnd (cells : Cells) (act : Nat) : LoadEnd :=
  match dirEntry cells act with
  | none => .noAct
  | some d =>
    if ¬ d.loadable then .corrupt none
    else if crc32 (d.image cells) ≠ d.crc then .check
    else imageEnd (d.image cells) d

/-- How the verify of an act ends (R123). -/
inductive VerifyEnd where
  | compared (computed stored : BitVec 32)
  | noAct
  | ecc (address : Nat)
  deriving DecidableEq, Repr

/-- How the verify of an act ends when every unit it reads is sound (R123). -/
def verifyEnd (cells : Cells) (act : Nat) : VerifyEnd :=
  match dirEntry cells act with
  | none => .noAct
  | some d => if d.wellFormed then .compared (crc32 (d.image cells)) d.crc else .noAct

/-! ### Operation reads (R114) -/

/-- The units an act's entry calls for: its own first unit (log 16), then those of its image if the entry passes. -/
def entryUnits (cells : Cells) (act : Nat) (passes : DirEntry → Bool) : List Nat :=
  dirUnit act ::
    (match dirEntry cells act with
     | some d => if passes d then d.units else []
     | none => [])

/-- What an operation reads while no unit fails, in order, and as which reader (R123, R124, R126). -/
def StoreOp.work (cells : Cells) : StoreOp → Option (Reader × List Nat)
  | .verify act => some (.verify, entryUnits cells act DirEntry.wellFormed)
  | .load act => some (.load, entryUnits cells act DirEntry.loadable)
  | .checksum address length => some (.checksum, unitsOf address length)
  | .program .. | .erase _ | .protect _ | .unprotect _ => none

/-- What the operation in flight reads, if it reads. -/
def Store.work (st : Store) : Option (Reader × List Nat) := st.flight.bind (fun f => f.op.work st.cells)

/-- The units that the operation in flight has still to read (R114). -/
def Store.readsLeft (st : Store) : List Nat := ((st.work.map (·.2)).getD []).drop st.reads

/-- The units of a list before the first that fails. -/
def Store.beforeFailure (st : Store) (units : List Nat) : List Nat := units.takeWhile (fun u => !st.unitFails u)

/-- One unit read by the operation in flight, an event of its own: the COUNTER_HALF notice of the unit before it is
offered first (R114, R170). -/
def readNext (reader : Reader) (s : State) (unit : Nat) : State :=
  let s1 := readUnit reader (offerHalves s) unit
  s1.withStore { s1.store with reads := s1.store.reads + 1 }

/-- Units read one after another by the operation in flight. -/
def readOn (reader : Reader) (units : List Nat) (s : State) : State := units.foldl (readNext reader) s

/-- The entry's region becomes the loaded region when the load in flight has read the entry and check 2 passes (R126,
R129). -/
def regionTaken (s : State) : State :=
  match s.store.flight with
  | some ⟨.load act, _⟩ =>
    match dirEntry s.store.cells act with
    | some d =>
      if 0 < s.store.reads ∧ d.loadable then s.withStore { s.store with region := some ⟨d.first, d.count⟩ } else s
    | none => s
  | _ => s

/-- Up to n units read by the operation in flight between two commands, while no queued read waits (R114); the unit
whose failure ends the operation is left to its completion (log 15). -/
def readAhead (n : Nat) (s : State) : State :=
  match s.store.work with
  | some (reader, _) =>
    if s.store.queue = [] then
      regionTaken (readOn reader (s.store.beforeFailure (s.store.readsLeft.take n)) s)
    else s
  | none => s

end Sys2Proof.Machine
end

