-- ==== Sys2Proof/Machine/Store.lean ====
section
/-! DEFINITION. The store operations (chapter The Cue Store): what each request checks, and what each completion does
(R116 to R130). -/

namespace Sys2Proof.Machine

/-! ### Shared (R118) -/

/-- Whether an operation is in flight (R118). -/
def Store.busy (st : Store) : Bool := st.flight.isSome

/-- An operation accepted and put in flight (R118). -/
def accept (op : StoreOp) (tag : Byte) (s : State) : Reply :=
  .answer (s.withStore { s.store with flight := some ⟨op, tag⟩, reads := 0 }) .accepted []

/-- No operation in flight any more (R118). -/
def landed (s : State) : State := s.withStore { s.store with flight := none, suspended := false, reads := 0 }

/-- The OP_DONE notice of an operation; none while a RESTART is carried out (R118, R132). -/
def opDone (op : OpName) (tag : Byte) (result : DoneResult) (data : List Byte) (s : State) : State :=
  if s.management.restart = .none then notify (.opDone op tag result data) s else s

/-- Whether an act number is one of 1 to 8 (R123, R125, R128). -/
def actOk (act : Byte) : Bool := 1 ≤ act.toNat && act.toNat ≤ 8

/-- Whether the operation in flight is a load (R116, R167). -/
def Store.isLoading (st : Store) : Bool :=
  match st.flight with
  | some ⟨.load _, _⟩ => true
  | _ => false

/-- Whether a run touches the sector being erased (R116). -/
def Store.runErasing (st : Store) (address length : Nat) : Bool :=
  match st.flight with
  | some ⟨.erase sector, _⟩ => address / 4096 ≤ sector && sector ≤ (address + length - 1) / 4096
  | _ => false

/-! ### READ_STORE (R116) -/

/-- READ_STORE (R116): its checks, then its read joins the queue and the request stays in handling (R163). -/
def doReadStore (address : BitVec 32) (length : Byte) (s : State) : Reply :=
  let a := address.toNat
  let n := length.toNat
  if ¬ (1 ≤ n ∧ n ≤ 224 ∧ a + n ≤ Config.storeSize) then refuse s .range
  else if s.store.isLoading then refuse s .busy
  else if s.store.runErasing a n then refuse s .busy
  else .waiting (joinQueue (.readStore a n) s)

/-- The data of a READ_STORE's response (R116; the count byte and presence byte: log 19). -/
def readStoreData (st : Store) (a n : Nat) : List Byte :=
  let failure := st.firstFailure (unitsOf a n)
  be 1 n ++ (List.range n).map (fun i => st.returned (a + i)) ++ yes failure.isSome ++ optionally (be 4) failure

/-- Whether a queued read is that of a READ_STORE. -/
def ReadJob.isReadStore : ReadJob → Bool
  | .readStore .. => true
  | .staging => false

/-- Whether a queued read is the staging read. -/
def ReadJob.isStaging : ReadJob → Bool
  | .staging => true
  | .readStore .. => false

/-- The read of a READ_STORE served (R114, R115, R116): its answer is placed, which ends the handling (R163). -/
def readStoreServed (s : State) : State :=
  match s.management.handling, s.store.queue with
  | some h, .readStore a n :: _ =>
    if servable ReadJob.isReadStore s then
      respond h .ok (readStoreData s.store a n) (leaveQueue (readUnits .readStore (unitsOf a n) s))
    else s
  | _, _ => s

/-! ### PROGRAM_STORE (R119) -/

/-- Whether a run of 1 to 224 bytes lies within one page of the store (R119). -/
def runInPage (a n : Nat) : Bool :=
  1 ≤ n && n ≤ 224 && a / 256 = (a + n - 1) / 256 && a + n ≤ Config.storeSize

/-- PROGRAM_STORE (R119). -/
def doProgramStore (tag : Byte) (address : BitVec 32) (data : List Byte) (s : State) : Reply :=
  let a := address.toNat
  let n := data.length
  if ¬ runInPage a n then refuse s .range
  else if s.store.busy then refuse s .busy
  else
    let s1 := checkReads s
    if s1.store.sectorProtected (a / 4096) then refuse s1 .protected_
    else if ¬ s1.store.cells.runErased a n then refuse s1 .notErased
    else accept (.program a data) tag s1

/-- A program's completion (R119). -/
def programCompleted (s : State) : State :=
  match s.store.flight with
  | some ⟨.program a data, tag⟩ =>
    let s1 := landed (s.withStore { s.store with cells := s.store.cells.program a data })
    opDone .program tag .ok (be 4 a ++ be 4 data.length) s1
  | _ => s

/-! ### ERASE_SECTOR (R120) -/

/-- ERASE_SECTOR (R120); reads still queued suspend it from its start (R114, log 24). -/
def doEraseSector (tag : Byte) (sector : BitVec 16) (s : State) : Reply :=
  let n := sector.toNat
  if 511 < n then refuse s .range
  else if s.store.busy then refuse s .busy
  else
    let s1 := checkReads s
    if s1.store.sectorProtected n then refuse s1 .protected_
    else accept (.erase n) tag (s1.withStore { s1.store with suspended := !s1.store.queue.isEmpty })

/-- An erase's completion (R120); a suspended erase does not complete (R114). -/
def eraseCompleted (s : State) : State :=
  match s.store.flight with
  | some ⟨.erase sector, tag⟩ =>
    if s.store.suspended then s
    else
      opDone .erase tag .ok (be 2 sector)
        (landed (s.withStore { s.store with cells := s.store.cells.eraseSector sector }))
  | _ => s

/-! ### VERIFY_ACT and CHECKSUM (R123, R124) -/

/-- The completion of an operation that reads (R114): nothing while a queued read goes before a unit still to be read;
else the rest of its units are read up to the first that fails, and the operation ends with that unit's address or with
none (log 15). -/
def finishReads (reader : Reader) (finish : Option Nat → State → State) (s : State) : State :=
  let left := s.store.readsLeft
  if s.store.queue ≠ [] ∧ left ≠ [] then s
  else finish (s.store.firstFailure left) (landed (readOn reader (s.store.untilFailure left) s))

/-- VERIFY_ACT (R123). -/
def doVerifyAct (tag act : Byte) (s : State) : Reply :=
  if ¬ actOk act then refuse s .range
  else if s.store.busy then refuse s .busy
  else accept (.verify act.toNat) tag s

/-- Data of a VERIFY's OP_DONE (R118); computed and stored CRC-32 are one optional item (log 19). -/
def verifyData (act : Nat) (crcs : Option (BitVec 32 × BitVec 32)) (address : Option Nat) : List Byte :=
  be 1 act ++ optionally (fun c => be 4 c.1.toNat ++ be 4 c.2.toNat) crcs ++ optionally (be 4) address

/-- The OP_DONE of a verify (R118, R123). -/
def verifyDone (tag : Byte) (act : Nat) : VerifyEnd → State → State
  | .compared computed stored, s =>
    opDone .verify tag (if computed = stored then .match_ else .mismatch)
      (verifyData act (some (computed, stored)) none) s
  | .noAct, s => opDone .verify tag .noAct (verifyData act none none) s
  | .ecc a, s => opDone .verify tag .ecc (verifyData act none (some a)) s

/-- A verify's completion (R123), with the reads left to it (log 15). -/
def verifyCompleted (s : State) : State :=
  match s.store.flight with
  | some ⟨.verify act, tag⟩ =>
    finishReads .verify (fun failure => verifyDone tag act (match failure with
      | some a => .ecc a
      | none => verifyEnd s.store.cells act)) s
  | _ => s

/-- CHECKSUM (R124). -/
def doChecksum (tag : Byte) (address length : BitVec 32) (s : State) : Reply :=
  let a := address.toNat
  let n := length.toNat
  if ¬ (1 ≤ n ∧ n ≤ Config.storeSize ∧ a + n ≤ Config.storeSize) then refuse s .range
  else if s.store.busy then refuse s .busy
  else accept (.checksum a n) tag s

/-- The OP_DONE of a checksum (R118, R124): OK with the CRC, or ECC with the address of the unit that failed. -/
def checksumDone (tag : Byte) (a n : Nat) (failure : Option Nat) (s : State) : State :=
  match failure with
  | none =>
    opDone .checksum tag .ok
      (be 4 a ++ be 4 n ++ optionally (be 4) (some (crc32 (s.store.cells.run a n)).toNat) ++ optionally (be 4) none) s
  | some u => opDone .checksum tag .ecc (be 4 a ++ be 4 n ++ optionally (be 4) none ++ optionally (be 4) (some u)) s

/-- A checksum's completion (R124), with the reads left to it (log 15). -/
def checksumCompleted (s : State) : State :=
  match s.store.flight with
  | some ⟨.checksum a n, tag⟩ => finishReads .checksum (checksumDone tag a n) s
  | _ => s

/-! ### Protection and the show lock (R128, R130) -/

/-- PROTECT_ACT and UNPROTECT_ACT (R128). -/
def doProtection (op : Nat → StoreOp) (tag act : Byte) (s : State) : Reply :=
  if ¬ actOk act then refuse s .range
  else if s.store.lock then refuse s .locked
  else if s.store.busy then refuse s .busy
  else accept (op act.toNat) tag s

/-- The protection table with a flag replaced, and no operation in flight (R128). -/
def protectionTaken (act : Nat) (value : Bool) (s : State) : State :=
  landed (s.withStore { s.store with protection := setFlag s.store.protection act value })

/-- A protection update's completion (R128). -/
def protectionCompleted (s : State) : State :=
  match s.store.flight with
  | some ⟨.protect act, tag⟩ =>
    let s1 := protectionTaken act true s
    opDone .protect tag .ok (be 1 act ++ [s1.store.protection]) s1
  | some ⟨.unprotect act, tag⟩ =>
    let s1 := protectionTaken act false s
    opDone .unprotect tag .ok (be 1 act ++ [s1.store.protection]) s1
  | _ => s

/-- Whether a protection update is in flight (R130). -/
def Store.updating (st : Store) : Bool :=
  match st.flight with
  | some ⟨.protect _, _⟩ => true
  | some ⟨.unprotect _, _⟩ => true
  | _ => false

/-- LOCK_SHOW (R130). -/
def doLockShow (s : State) : Reply :=
  if s.store.updating then refuse s .busy else .answer (s.withStore { s.store with lock := true }) .ok []

/-! ### The ECC address trap (R117) -/

/-- READ_ECC (R117); one presence byte for address and reader together (log 19). -/
def doReadEcc (s : State) : Reply :=
  .answer s .ok (optionally (fun t => be 4 t.address ++ be 1 t.reader.code) s.store.trap)

/-- CLEAR_ECC (R117). -/
def doClearEcc (s : State) : Reply := .answer (s.withStore { s.store with trap := none }) .ok []

/-! ### The act load (R125 to R127, R135) -/

/-- LOAD_ACT (R125). -/
def doLoadAct (tag act : Byte) (s : State) : Reply :=
  if ¬ actOk act then refuse s .range
  else if s.control.show_ ≠ .dark then refuse s .state
  else if ¬ s.management.valid then refuse s .notValid
  else if s.store.busy ∨ s.store.queue ≠ [] then refuse s .busy
  else accept (.load act.toNat) tag (s.withControl { s.control with loading := true })

/-- Data of a LOAD's OP_DONE (R118); cue count and image language count are one optional item (log 19). -/
def loadData (act : Nat) (counts : Option (Nat × Nat)) (index address : Option Nat) : List Byte :=
  be 1 act ++ optionally (fun c => be 2 c.1 ++ be 1 c.2) counts ++ optionally (be 2) index ++ optionally (be 4) address

/-- The act placed in the table at load success, with the blocks' values for LOAD_ACT success (R5, R29, R48, R49, R127,
R129, R135). -/
def actPlaced (act : Nat) (region : Region) (langs : List Code) (beat : Nat) (cues : List Cue) (s : State) : State :=
  let s1 := s.withTable { cues := cues, langs := langs, beat := some beat, map := buildMap s.config langs }
  let s2 := s1.withTracker (s1.tracker.resetTo beat s1.clock)
  let s3 := (s2.withFiring Firing.initial).withStaging Staging.initial
  let s4 := s3.withControl { show_ := .preset, act := some act, loading := false }
  s4.withStore { s4.store with region := some region }

/-- A load that passed every check (R127, R135). -/
def loadSucceeds (tag : Byte) (act : Nat) (region : Region) (langs : List Code) (beat : Nat) (cues : List Cue)
    (s : State) : State :=
  let s1 := actPlaced act region langs beat cues s
  let s2 := opDone .load tag .ok (loadData act (some (cues.length, langs.length)) none none) s1
  showNotice .dark .loadAct (some tag) (stage (emptyChannels .blank s2))

/-- A load that failed: nothing kept, no region (R127, R129). -/
def loadFails (tag : Byte) (result : DoneResult) (data : List Byte) (s : State) : State :=
  let s1 := s.withStore { s.store with region := none }
  opDone .load tag result data (s1.withControl { s1.control with loading := false })

/-- A load's end (R126, R127). -/
def loadEnds (tag : Byte) (act : Nat) : LoadEnd → State → State
  | .success region langs beat cues, s => loadSucceeds tag act region langs beat cues s
  | .noAct, s => loadFails tag .noAct (loadData act none none none) s
  | .corrupt index, s => loadFails tag .corrupt (loadData act none index none) s
  | .check, s => loadFails tag .check (loadData act none none none) s
  | .ecc a, s => loadFails tag .ecc (loadData act none none (some a)) s

/-- A load's completion (R127), with the reads left to it (log 15). -/
def loadCompleted (s : State) : State :=
  match s.store.flight with
  | some ⟨.load act, tag⟩ =>
    finishReads .load (fun failure => loadEnds tag act (match failure with
      | some a => .ecc a
      | none => loadEnd s.store.cells act)) s
  | _ => s

/-! ### The staging read (R41, R42) -/

/-- The units of the text entry at a store address: byte length, counts and bytes (R34, R187), by the length as it was
programmed even where its own unit is uncorrectable (DESIGN CHOICE, log 39). -/
def textUnits (st : Store) (address : Nat) : List Nat := unitsOf address (3 + (st.cells.value address).toNat)

/-- The text entry at a store address (R34, R187). -/
def textAt (st : Store) (address : Nat) : TitleText :=
  { bytes := st.cells.run (address + 3) (st.cells.value address).toNat
    chars := (st.cells.value (address + 1)).toNat
    lines := (st.cells.value (address + 2)).toNat }

/-- Step 1: the result delivered to every channel named on the key's awaited entry, which leaves the list (R41, R42,
R46), in channel order (DESIGN CHOICE, log 36). -/
def deliverAwaited (k : Key) (result : Staged) (s : State) : State :=
  match s.staging.awaited.find? (fun a => a.key = k) with
  | none => s
  | some a =>
    let s1 := s.withStaging { s.staging with awaited := s.staging.awaited.filter (fun x => x.key ≠ k) }
    forChannels (fun n s => if setHas a.channels n then deliver k result n s else s) s1

/-- Whether step 2 stores the result: the cue in the window, no entry, not stale (R41, R42). -/
def wantsEntry (r : StagingRead) (s : State) : Bool :=
  inWindowOf s r.key.cue && (s.staging.find r.key).isNone && !r.stale

/-- Step 2: the result enters the set (R41, R42). -/
def keepResult (r : StagingRead) (result : Staged) (s : State) : State :=
  if wantsEntry r s then s.withStaging { s.staging with entries := s.staging.entries ++ [⟨r.key, result⟩] } else s

/-- A staging read has ended with a result, its failing unit given if it failed (R41, R42). -/
def takeReadEnd (r : StagingRead) (failure : Option Nat) (text : TitleText) (s : State) : State :=
  let result : Staged := match failure with
    | none => .ready text
    | some _ => .failed
  let delivered := s.staging.awaited.any (fun a => a.key = r.key)
  let s1 := deliverAwaited r.key result s
  let kept := wantsEntry r s1
  let s2 := keepResult r result s1
  match failure with
  | some a =>
    if delivered || kept then notify (.storeError r.key.cue (s2.table.labelAt r.key.cue) r.key.lang a) s2 else s2
  | none => s2

/-- The end of the staging read (R41, R42, R114, R115), after which the staging logic looks for work (R40). -/
def stagingReadEnded (s : State) : State :=
  match s.staging.reading with
  | some r =>
    if servable ReadJob.isStaging s then
      let units := textUnits s.store r.address
      let s1 := leaveQueue (readUnits .staging units s)
      let s2 := s1.withStaging { s1.staging with reading := none }
      stage (takeReadEnd r (s.store.firstFailure units) (textAt s.store r.address) s2)
    else s
  | none => s

end Sys2Proof.Machine
end

