-- ==== Sys2Proof/Machine/Configure.lean ====
section
/-! DEFINITION. The management block's own requests: configuration (R166 to R168), status (R169), counters (R170) and
identification (R172). -/

namespace Sys2Proof.Machine

/-! ### Values of items (R166, R185) -/

/-- A channel's configuration with one item given a value. -/
def ChannelConfig.give (k : ChannelConfig) : ChannelItem → Nat → ChannelConfig
  | .enabled, v => { k with enabled := decide (v ≠ 0) }
  | .address, v => { k with address := BitVec.ofNat 8 v }
  | .language, v => { k with language := Fin.ofNat 6 v }
  | .lines, v => { k with lines := v }
  | .muted, v => { k with muted := decide (v ≠ 0) }

/-- A language's configuration with one item given a value; the code 0 is none (R185). -/
def LanguageConfig.give (k : LanguageConfig) : LanguageItem → Nat → LanguageConfig
  | .code, v => { k with code := if v = 0 then none else some (BitVec.ofNat 24 v) }
  | .base, v => { k with base := v }
  | .perChar, v => { k with perChar := v }
  | .cap, v => { k with cap := v }
  | .gap, v => { k with gap := v }
  | .catchUp, v => { k with catchUp := v }

/-- The engine's configuration with one item given a value. -/
def EngineConfig.give (k : EngineConfig) : EngineItem → Nat → EngineConfig
  | .slip, v => { k with slip := v }
  | .smoothing, v => { k with smoothing := v }
  | .horizon, v => { k with horizon := v }
  | .silenceLimit, v => { k with silenceLimit := v }
  | .gapLimit, v => { k with gapLimit := v }
  | .rateWindow, v => { k with rateWindow := v }
  | .onSilence, v => { k with onSilence := decide (v ≠ 0) }
  | .onGap, v => { k with onGap := decide (v ≠ 0) }
  | .onReverse, v => { k with onReverse := decide (v ≠ 0) }
  | .onRate, v => { k with onRate := decide (v ≠ 0) }
  | .watchOn, v => { k with watchOn := decide (v ≠ 0) }
  | .watchWindow, v => { k with watchWindow := v }
  | .goReleases, v => { k with goReleases := decide (v ≠ 0) }
  | .censusWindow, v => { k with censusWindow := v }
  | .notice kind, v => { k with notices := k.notices.set kind (decide (v ≠ 0)) }

/-- The configuration with one item given a value (R166, R167). -/
def Configuration.give (c : Configuration) : ConfigItem → Nat → Configuration
  | .channel n item, v => { c with channels := c.channels.set n (c.channels[n].give item v) }
  | .language l item, v => { c with languages := c.languages.set l (c.languages[l].give item v) }
  | .engine item, v => { c with engine := c.engine.give item v }

/-- The value an item holds in a channel's configuration. -/
def ChannelConfig.value (k : ChannelConfig) : ChannelItem → Nat
  | .enabled => k.enabled.toNat
  | .address => k.address.toNat
  | .language => k.language
  | .lines => k.lines
  | .muted => k.muted.toNat

/-- The value an item holds in a language's configuration. -/
def LanguageConfig.value (k : LanguageConfig) : LanguageItem → Nat
  | .code => (k.code.map (·.toNat)).getD 0
  | .base => k.base
  | .perChar => k.perChar
  | .cap => k.cap
  | .gap => k.gap
  | .catchUp => k.catchUp

/-- The value an item holds in the engine's configuration. -/
def EngineConfig.value (k : EngineConfig) : EngineItem → Nat
  | .slip => k.slip
  | .smoothing => k.smoothing
  | .horizon => k.horizon
  | .silenceLimit => k.silenceLimit
  | .gapLimit => k.gapLimit
  | .rateWindow => k.rateWindow
  | .onSilence => k.onSilence.toNat
  | .onGap => k.onGap.toNat
  | .onReverse => k.onReverse.toNat
  | .onRate => k.onRate.toNat
  | .watchOn => k.watchOn.toNat
  | .watchWindow => k.watchWindow
  | .goReleases => k.goReleases.toNat
  | .censusWindow => k.censusWindow
  | .notice kind => k.notices[kind].toNat

/-- The value an item holds (R168). -/
def Configuration.value (c : Configuration) : ConfigItem → Nat
  | .channel n item => c.channels[n].value item
  | .language l item => c.languages[l].value item
  | .engine item => c.engine.value item

/-! ### SET_CONFIG (R167) -/

/-- Whether a pair's value lies in its item's range (R167). -/
def pairInRange (p : ConfigPair) : Bool := (itemOf p.item).any (fun item => item.inRange (ofBe p.value))

/-- Whether a pair names a structural item (R166). -/
def pairStructural (p : ConfigPair) : Bool := (itemOf p.item).any (·.structural)

/-- One pair applied (R167). -/
def applyPair (c : Configuration) (p : ConfigPair) : Configuration :=
  match itemOf p.item with
  | some item => c.give item (ofBe p.value)
  | none => c

/-- The values of a list, a later one over an earlier (R167). -/
def applyPairs (c : Configuration) (pairs : List ConfigPair) : Configuration := pairs.foldl applyPair c

/-- A disabled channel: power-up values, but for caption number, slip maximum and present flag (R73). -/
def Channel.disabled (c : Channel) : Channel :=
  { Channel.initial with number := c.number, slipMax := c.slipMax, present := c.present }

/-- A channel disabled: its state (R73), its level-3 slot (R110), and a test on it (R180). -/
def channelDisabled (n : Fin 8) (s : State) : State :=
  let s1 := s.withChannel n s.channels[n].disabled
  let s2 := s1.withPlacements (leavePlacements .alert (setWith 0 n) s1.placements)
  match s2.tools.running with
  | .test r => if r.channel = n then endTest r .disabled s2 else s2
  | _ => s2

/-- What a change of configuration does to one channel (R73, R74, R93, R110, R180). -/
def channelChanged (old : Configuration) (n : Fin 8) (s : State) : State :=
  let a := old.channels[n]
  let b := s.config.channels[n]
  let s1 := if a.enabled && !b.enabled then channelDisabled n s else s
  let s2 := if a.address ≠ b.address then s1.withChannel n { s1.channels[n] with present := .unknown } else s1
  if a.muted && !b.muted && b.enabled && !withheld s2 n then writeCaption n s2 else s2

/-- Whether an item of R50 has changed (R50, R51). -/
def watchItemsChanged (old new : EngineConfig) : Bool :=
  decide (old.watchOn ≠ new.watchOn) || decide (old.watchWindow ≠ new.watchWindow) ||
    decide (old.goReleases ≠ new.goReleases)

/-- The values of a list taking effect together, each block acting on the difference (R167; order: log 32). -/
def configTaken (pairs : List ConfigPair) (s : State) : State :=
  let old := s.config
  let s1 := s.withConfig (applyPairs old pairs)
  let s2 := if pairs.any pairStructural then s1.withManagement { s1.management with valid := false } else s1
  let s3 := forChannels (channelChanged old) s2
  if watchItemsChanged old.engine s3.config.engine then arm s3 else s3

/-- SET_CONFIG (R167); RANGE names the first pair out of range, counted from 1 (R164). -/
def doSetConfig (pairs : List ConfigPair) (s : State) : Reply :=
  if ¬ pairs.all pairSized then refuse s .invalid
  else match pairs.findIdx? (fun p => !pairInRange p) with
    | some i => .answer s .range (be 1 (i + 1))
    | none =>
      if pairs.any pairStructural ∧ s.control.show_ ≠ .dark then refuse s .state
      else if pairs.any pairStructural ∧ s.store.isLoading then refuse s .busy
      else .answer (configTaken pairs s) .ok []

/-! ### READ_CONFIG and COMMIT_CONFIG (R168) -/

/-- An item's value as bytes (R185). -/
def itemBytes (c : Configuration) (item : ConfigItem) : List Byte := be item.size (c.value item)

/-- Every item of R166, in the order of its rows: each channel's items, each language's, then the engine's. -/
def allItems : List ConfigItem :=
  ((List.finRange 8).map (fun n => channelItems.map (.channel n))).flatten ++
    ((List.finRange 6).map (fun l => languageItems.map (.language l))).flatten ++ engineItems.map .engine

/-- READ_CONFIG (R168; the order of its items: log 19). -/
def doReadConfig (s : State) : Reply :=
  .answer s .ok ((allItems.map (itemBytes s.config)).flatten ++ yes s.management.valid)

/-- The enabled channels whose language has no code (R168 condition 2). -/
def codeless (c : Configuration) : List (Fin 8) :=
  allChannels.filter (fun n => c.channels[n].enabled && (c.languages[c.channels[n].language].code).isNone)

/-- Whether two channels are enabled and share a screen address (R168 condition 3). -/
def shares (c : Configuration) (a b : Fin 8) : Bool :=
  decide (a < b) && c.channels[a].enabled && c.channels[b].enabled && decide (c.channels[a].address = c.channels[b].address)

/-- The pairs of enabled channels that share an address, lowest first (R168 condition 3). -/
def sharing (c : Configuration) : List (Fin 8 × Fin 8) :=
  (allChannels.map (fun a => (allChannels.filter (shares c a)).map (fun b => (a, b)))).flatten

/-- The failing condition of a commit, with the channels concerned, or none (R168). -/
def commitFailure (c : Configuration) : Option (Nat × ChannelSet) :=
  if ¬ allChannels.any (fun n => c.channels[n].enabled) then some (1, 0)
  else match codeless c with
    | n :: _ => some (2, setWith 0 n)
    | [] => match sharing c with
      | (a, b) :: _ => some (3, setWith (setWith 0 a) b)
      | [] => none

/-- COMMIT_CONFIG (R168). -/
def doCommitConfig (s : State) : Reply :=
  match commitFailure s.config with
  | some (condition, channels) => .answer s .range (be 1 condition ++ [channels])
  | none => .answer (s.withManagement { s.management with valid := true }) .ok []

/-! ### READ_STATUS (R97, R169) -/

/-- A channel's part of the status (R97). -/
def channelStatus (s : State) (n : Fin 8) : List Byte :=
  let c := s.channels[n]
  be 1 c.layer.code ++ optionally (fun i => be 2 i.cue ++ labelBytes i.label) c.current ++ be 1 c.queue.length ++
    yes ((c.queue.head?).any (·.awaiting)) ++ yes s.config.channels[n].muted ++ [c.number] ++ be 4 c.slipMax ++
    be 1 c.present.code ++ yes (isUnserved s n)

/-- The name of an operation (R183). -/
def StoreOp.name : StoreOp → OpName
  | .program .. => .program
  | .erase _ => .erase
  | .verify _ => .verify
  | .checksum .. => .checksum
  | .protect _ => .protect
  | .unprotect _ => .unprotect
  | .load _ => .load

/-- The store controller's part of the status (R113, R169). -/
def storeStatus (st : Store) : List Byte :=
  (match st.flight with
   | none => be 1 OpName.none.code ++ [0]
   | some f => be 1 f.op.name.code ++ [1, f.tag]) ++
    yes st.suspended ++ yes st.lock ++ [st.protection] ++ optionally Region.bytes st.region

/-- The tools' part of the status (R169). -/
def toolStatus (t : Tools) : List Byte :=
  match t.running with
  | .none => yes false ++ yes false ++ [0]
  | .census .. => yes true ++ yes false ++ [0]
  | .test r => yes false ++ yes true ++ [1] ++ be 1 r.channel

/-- The tracker's part of the status (R169). -/
def trackerStatus (s : State) : List Byte :=
  be 1 s.tracker.follow.code ++ be 3 s.tracker.beat ++ be 3 (projection s) ++ yes s.tracker.settle ++ [s.tracker.latch.byte]

/-- The firing unit's part of the status (R169, log 19). -/
def firingStatus (s : State) : List Byte :=
  be 2 s.table.cues.length ++ (pointerPlace s).bytes ++ optionally Place.fired (lastPlace s) ++
    optionally (fun c : Cue => be 1 c.trigger.code) (s.table.cues[s.firing.pointer]?)

/-- The status of every block (R169); the eight channels stand one after another without a count byte (log 19, with the
presence bytes). -/
def statusData (s : State) : List Byte :=
  be 1 s.control.show_.code ++ optionally (be 1) s.control.act ++ yes s.control.loading ++ trackerStatus s ++
    firingStatus s ++ (allChannels.map (channelStatus s)).flatten ++ storeStatus s.store ++
    be 1 s.link.downFifo.length ++ be 1 s.link.upFifo.length ++ be 2 s.link.coalesced.toNat ++
    yes s.management.valid ++ be 1 s.management.notices.length ++ yes s.management.discarded ++ toolStatus s.tools

/-- A channel with its slip maximum set to 0 (R89). -/
def Channel.slipRead (c : Channel) : Channel := { c with slipMax := 0 }

/-- The latch emptied and every slip maximum set to 0 (R26, R89, R169). -/
def statusRead (s : State) : State :=
  (s.withTracker { s.tracker with latch := ⟨false, false, false, false⟩ }).withChannels (s.channels.map Channel.slipRead)

/-- READ_STATUS (R169). -/
def doReadStatus (s : State) : Reply := .answer (statusRead s) .ok (statusData s)

/-! ### READ_COUNTERS and IDENTIFY (R170, R172) -/

/-- READ_COUNTERS (R170). -/
def doReadCounters (s : State) : Reply := .answer (s.withCounters (Vector.replicate 14 0)) .ok s.counters.toList

/-- IDENTIFY (R172, R185). -/
def doIdentify (s : State) : Reply :=
  .answer s .ok (be 2 Config.vendorCode ++ be 2 Config.partCode ++ [Config.revision] ++ be 8 Config.uniqueNumber.toNat ++
    be 4 Config.storeSize ++ [s.link.address])

end Sys2Proof.Machine
end

