-- ==== Sys2Proof/Machine/Requests.lean ====
section
/-! DEFINITION. The management block's handling of requests: which block answers each (R164), the response (R163), the
request FIFO (R162), and a request arriving as a command of its own row (log 4). -/

namespace Sys2Proof.Machine

/-- The answer of the block that owns a request (R164). -/
def replyOf (h : Head) (r : Request) (s : State) : Reply :=
  match r with
  | .identify => doIdentify s
  | .readStatus => doReadStatus s
  | .readCounters => doReadCounters s
  | .readConfig => doReadConfig s
  | .setConfig pairs => doSetConfig pairs s
  | .commitConfig => doCommitConfig s
  | .loadAct act => doLoadAct h.tag act s
  | .start force => doStart h.tag force s
  | .hold => doHold h.tag s
  | .resume => doResume h.tag s
  | .stop => doStop h.tag s
  | .unload => doUnload h.tag h.confirm s
  | .setPointer label => doSetPointer label s
  | .showMessage level mask duration text => doShowMessage h.tag h.confirm level mask duration text s
  | .clearMessage level mask => doClearMessage h.confirm level mask s
  | .readStore address length => doReadStore address length s
  | .programStore address data => doProgramStore h.tag address data s
  | .eraseSector sector => doEraseSector h.tag sector s
  | .verifyAct act => doVerifyAct h.tag act s
  | .checksum address length => doChecksum h.tag address length s
  | .protectAct act => doProtection .protect h.tag act s
  | .unprotectAct act => doProtection .unprotect h.tag act s
  | .lockShow => doLockShow s
  | .readEcc => doReadEcc s
  | .clearEcc => doClearEcc s
  | .census => doCensus h.tag s
  | .readCensus => doReadCensus s
  | .screenTest channel count length gap mode => doScreenTest h.tag channel count length gap mode s
  | .stopTest => doStopTest s
  | .restart => doRestart h.confirm s

/-- The request that becomes the one in handling (R163). -/
def takeInHand (g : Handling) (s : State) : State := s.withManagement { s.management with handling := some g }

/-- A reply carried out: the response placed, or the request left in handling (R163). -/
def carryOut (g : Handling) : Reply → State
  | .answer s result data => respond g result data s
  | .waiting s => s

/-- What the request in handling keeps of its head and code (R163). -/
def handlingOf (h : Head) (code : Byte) : Handling := { source := h.source, code := code, tag := h.tag }

/-- A request handled (R163, R164). -/
def handleRequest (h : Head) (r : Request) (s : State) : State :=
  let g := handlingOf h (requestCode r)
  carryOut g (replyOf h r (takeInHand g s))

/-- A payload that does not decode is answered INVALID, with 0 for a missing code or tag (R164). -/
def handleInvalid (source : Byte) (payload : List Byte) (s : State) : State :=
  let g : Handling := { source := source, code := fieldByte payload 0, tag := fieldByte payload 1 }
  respond g .invalid [] (takeInHand g s)

/-- A payload taken from the FIFO is decoded and handled (R163, R164). -/
def handlePayload (source : Byte) (payload : List Byte) (s : State) : State :=
  match decodeRequest payload with
  | some r => handleRequest { source := source, tag := fieldByte payload 1, confirm := fieldByte payload 2 } r s
  | none => handleInvalid source payload s

/-- Whether the management block may take a request: none in handling, the response slot empty, no RESTART answered
(R141, R163). -/
def managementFree (s : State) : Bool :=
  s.management.handling.isNone && s.link.response.isNone && decide (s.management.restart = .none)

/-- Requests taken from the FIFO's head while the management block may take one (R163). The fuel is the FIFO's length. -/
def serveLoop : Nat → State → State
  | 0, s => s
  | k + 1, s =>
    match s.management.fifo with
    | [] => s
    | q :: rest =>
      if managementFree s then
        serveLoop k (handlePayload q.source q.payload (s.withManagement { s.management with fifo := rest }))
      else s

/-- Requests taken while they may be (R163). -/
def serve (s : State) : State := serveLoop s.management.fifo.length s

/-- A request offered to the FIFO: it joins at the tail, or is dropped and counted (R151, R162). -/
def offerRequest (source : Byte) (payload : List Byte) (s : State) : State :=
  if s.management.fifo.length < Config.requestPlaces then
    s.withManagement { s.management with fifo := s.management.fifo ++ [⟨source, payload⟩] }
  else count .reqDrop s

/-- A REQ frame's payload taken (R151, R162, R163). -/
def takeRequest (source : Byte) (payload : List Byte) (s : State) : State := serve (offerRequest source payload s)

/-- A request that arrives in a frame of its own: handled at once where the management block is free and nothing waits,
and otherwise offered to the FIFO; a payload past 240 bytes makes a bad frame (R148, R162, R163; log 4). -/
def submit (h : Head) (r : Request) (s : State) : State :=
  if Config.payloadMax < (requestPayload r h.tag h.confirm).length then discardBad .u s
  else if s.management.fifo = [] ∧ managementFree s then handleRequest h r s
  else takeRequest h.source (requestPayload r h.tag h.confirm) s

/-- A payload that should not decode, arriving in a frame of its own (R164; log 4). -/
def submitPayload (source : Byte) (payload : List Byte) (s : State) : State :=
  if Config.payloadMax < payload.length then discardBad .u s
  else if s.management.fifo = [] ∧ managementFree s then handlePayload source payload s
  else takeRequest source payload s

end Sys2Proof.Machine
end

