-- ==== Sys2Proof/Machine/Frames.lean ====
section
/-! DEFINITION. What arrives on the ports and what has left them: dispatch of good frames (R149, R150), bad frames
(R148), completed transmissions (R156, R157). -/

namespace Sys2Proof.Machine

/-- A POS or GO frame that the engine takes (R151). -/
def takeFromDesk (f : Frame) (s : State) : State :=
  if f.kind = kindPos then takePos f.seq f.payload s
  else if f.kind = kindGo then takeGo f.payload s
  else s

/-- A good frame on port U, by its destination and kind (R149); a payload past 240 bytes makes it bad (R148, log 5). A
broadcast POS or GO is forwarded first and then taken (DESIGN CHOICE, log 41). -/
def dispatchU (f : Frame) (s : State) : State :=
  if Config.payloadMax < f.payload.length then discardBad .u s
  else if f.dest = s.link.address then
    if f.kind = kindPos ∨ f.kind = kindGo then takeFromDesk f s
    else if f.kind = kindReq then takeRequest f.source f.payload s
    else count .badKind s
  else if f.dest = 255 ∧ (f.kind = kindPos ∨ f.kind = kindGo) then takeFromDesk f (forwardDown f s)
  else forwardDown f s

/-- A good frame on port D, by its destination and kind (R150); a payload past 240 bytes makes it bad (R148, log 5). -/
def dispatchD (f : Frame) (s : State) : State :=
  if Config.payloadMax < f.payload.length then discardBad .d s
  else if f.dest = s.link.address then
    if f.kind = kindAnswer then takeAnswer f.source f.payload s
    else if f.kind = kindTest then takeEcho f.payload s
    else count .badKind s
  else forwardUp f s

/-- A good frame on either port. -/
def dispatch : Port → Frame → State → State
  | .u, f, s => dispatchU f s
  | .d, f, s => dispatchD f s

/-- Bytes received on a port: the frame they make is dispatched, and bytes that make none are a bad frame (R148). -/
def receive (port : Port) (bytes : List Byte) (s : State) : State :=
  match parseFrame bytes with
  | some f => dispatch port f s
  | none => discardBad port s

/-- The tool of a running test is told that its frame has been sent (R155, R178). -/
def toolSent (t : Option ToolFrame) (s : State) : State :=
  match t with
  | some (.test _ _ _ true) => testFrameSent s
  | _ => s

/-- Port D has sent its frame, and the arbiter chooses the next (R156). -/
def dSent (s : State) : State :=
  match s.link.sendingD with
  | none => chooseD s
  | some x => chooseD (toolSent x.tool (s.withLink { s.link with sendingD := none }))

/-- The response of a RESTART has been sent (R141, R160). -/
def restartSent (s : State) : State :=
  if s.management.restart = .sending then s.withManagement { s.management with restart := .sent } else s

/-- Port U has sent its frame, and the arbiter chooses the next; a response it takes frees the slot for the next request
(R157, R163). After the response of a RESTART the arbiter's choice precedes the restart (DESIGN CHOICE, log 40). -/
def uSent (s : State) : State :=
  match s.link.sendingU with
  | none => serve (chooseU s)
  | some _ => serve (chooseU (restartSent (s.withLink { s.link with sendingU := none })))

end Sys2Proof.Machine
end

