-- ==== Sys2Proof/Machine/Commands.lean ====
section
/-! DEFINITION. The meanings: one definition for each row of the opcode table. A command with a moment takes effect at
that show-clock reading and condition of the store's units, with the reads that precede it (log 2, log 13, log 15);
without power nothing happens (log 11). -/

namespace Sys2Proof.Machine

/-- What a command always answers: a next state. -/
abbrev Answer := Host.Outcome State Fault Refusal

/-- The state a command finds at its moment: its show-clock reading, the condition of the store's units, and the units
that the operation in flight has read since the command before (R114, log 15). -/
def atMoment (m : Moment) (s : State) : State :=
  offerHalves (readAhead m.reads ((s.withClock m.clock).withStore { s.store with faults := m.faults }))

/-- A command's effect at its moment, with the COUNTER_HALF notices of the step offered last (R170); without power there
is none. -/
def during (m : Moment) (s : State) (effect : State → State) : Answer :=
  .next (if s.powered then offerHalves (effect (atMoment m s)) else s)

/-- POWER_UP (R142). -/
def execPowerUp (straps : BitVec 4) (cut : Interrupt) (s : State) : Answer :=
  .next (powerGained straps cut s)

/-- BAD_FRAME (R148). Bytes that make a good frame after all are dispatched as that frame (log 5). -/
def execBadFrame (m : Moment) (port : Port) (bytes : List Byte) (s : State) : Answer :=
  during m s (receive port bytes)

/-- POS (R7), dispatched by its header (log 5). -/
def execPos (m : Moment) (dest source seq : Byte) (payload : List Byte) (s : State) : Answer :=
  during m s (dispatchU { dest := dest, source := source, kind := kindPos, seq := seq, payload := payload })

/-- GO (R62), dispatched by its header (log 5). -/
def execGo (m : Moment) (dest source seq : Byte) (payload : List Byte) (s : State) : Answer :=
  during m s (dispatchU { dest := dest, source := source, kind := kindGo, seq := seq, payload := payload })

/-- REQ (R162), dispatched by its header (log 5). -/
def execReq (m : Moment) (dest source seq : Byte) (payload : List Byte) (s : State) : Answer :=
  during m s (dispatchU { dest := dest, source := source, kind := kindReq, seq := seq, payload := payload })

/-- FOREIGN_KIND_FRAME (R149). -/
def execForeignKindFrame (m : Moment) (port : Port) (dest source kind seq : Byte) (payload : List Byte)
    (s : State) : Answer :=
  during m s (dispatch port { dest := dest, source := source, kind := kind, seq := seq, payload := payload })

/-- FORWARD_DOWN (R152), dispatched by its header (log 5). -/
def execForwardDown (m : Moment) (dest source kind seq : Byte) (payload : List Byte) (s : State) : Answer :=
  during m s (dispatchU { dest := dest, source := source, kind := kind, seq := seq, payload := payload })

/-- FORWARD_UP (R152), dispatched by its header (log 5). -/
def execForwardUp (m : Moment) (dest source kind seq : Byte) (payload : List Byte) (s : State) : Answer :=
  during m s (dispatchD { dest := dest, source := source, kind := kind, seq := seq, payload := payload })

/-- ANSWER (R175), dispatched by its header (log 5). -/
def execAnswer (m : Moment) (dest source seq : Byte) (payload : List Byte) (s : State) : Answer :=
  during m s (dispatchD { dest := dest, source := source, kind := kindAnswer, seq := seq, payload := payload })

/-- TEST_ECHO (R179), dispatched by its header (log 5). -/
def execTestEcho (m : Moment) (dest source seq : Byte) (payload : List Byte) (s : State) : Answer :=
  during m s (dispatchD { dest := dest, source := source, kind := kindTest, seq := seq, payload := payload })

/-- D_TRANSMISSION_COMPLETE (R156). -/
def execDTransmissionComplete (m : Moment) (s : State) : Answer :=
  during m s dSent

/-- U_TRANSMISSION_COMPLETE (R157). -/
def execUTransmissionComplete (m : Moment) (s : State) : Answer :=
  during m s uSent

/-- INVALID_REQUEST (R164). -/
def execInvalidRequest (m : Moment) (source : Byte) (payload : List Byte) (s : State) : Answer :=
  during m s (submitPayload source payload)

/-- IDENTIFY (R172). -/
def execIdentify (m : Moment) (h : Head) (s : State) : Answer :=
  during m s (submit h .identify)

/-- READ_STATUS (R169). -/
def execReadStatus (m : Moment) (h : Head) (s : State) : Answer :=
  during m s (submit h .readStatus)

/-- READ_COUNTERS (R170). -/
def execReadCounters (m : Moment) (h : Head) (s : State) : Answer :=
  during m s (submit h .readCounters)

/-- READ_CONFIG (R168). -/
def execReadConfig (m : Moment) (h : Head) (s : State) : Answer :=
  during m s (submit h .readConfig)

/-- SET_CONFIG (R167). -/
def execSetConfig (m : Moment) (h : Head) (pairs : List ConfigPair) (s : State) : Answer :=
  during m s (submit h (.setConfig pairs))

/-- COMMIT_CONFIG (R168). -/
def execCommitConfig (m : Moment) (h : Head) (s : State) : Answer :=
  during m s (submit h .commitConfig)

/-- LOAD_ACT (R125). -/
def execLoadAct (m : Moment) (h : Head) (act : Byte) (s : State) : Answer :=
  during m s (submit h (.loadAct act))

/-- START (R136). -/
def execStart (m : Moment) (h : Head) (force : Byte) (s : State) : Answer :=
  during m s (submit h (.start force))

/-- HOLD (R137). -/
def execHold (m : Moment) (h : Head) (s : State) : Answer :=
  during m s (submit h .hold)

/-- RESUME (R138). -/
def execResume (m : Moment) (h : Head) (s : State) : Answer :=
  during m s (submit h .resume)

/-- STOP (R139). -/
def execStop (m : Moment) (h : Head) (s : State) : Answer :=
  during m s (submit h .stop)

/-- UNLOAD (R140). -/
def execUnload (m : Moment) (h : Head) (s : State) : Answer :=
  during m s (submit h .unload)

/-- RESTART (R141). -/
def execRestart (m : Moment) (h : Head) (s : State) : Answer :=
  during m s (submit h .restart)

/-- RESTART_TAKES_EFFECT (R141, R160); it does nothing before its instant (log 9). -/
def execRestartTakesEffect (s : State) : Answer :=
  .next (if s.powered then restartEffect s else s)

/-- SET_POINTER (R69). -/
def execSetPointer (m : Moment) (h : Head) (label : Label) (s : State) : Answer :=
  during m s (submit h (.setPointer label))

/-- SHOW_MESSAGE (R100). -/
def execShowMessage (m : Moment) (h : Head) (level mask : Byte) (duration : BitVec 16) (text : List Byte)
    (s : State) : Answer :=
  during m s (submit h (.showMessage level mask duration text))

/-- CLEAR_MESSAGE (R104). -/
def execClearMessage (m : Moment) (h : Head) (level mask : Byte) (s : State) : Answer :=
  during m s (submit h (.clearMessage level mask))

/-- READ_STORE (R116). -/
def execReadStore (m : Moment) (h : Head) (address : BitVec 32) (length : Byte) (s : State) : Answer :=
  during m s (submit h (.readStore address length))

/-- READ_STORE_SERVED (R116). -/
def execReadStoreServed (m : Moment) (s : State) : Answer :=
  during m s (fun s => serve (readStoreServed s))

/-- PROGRAM_STORE (R119). -/
def execProgramStore (m : Moment) (h : Head) (address : BitVec 32) (data : List Byte) (s : State) : Answer :=
  during m s (submit h (.programStore address data))

/-- PROGRAM_COMPLETE (R119). -/
def execProgramComplete (m : Moment) (s : State) : Answer :=
  during m s programCompleted

/-- ERASE_SECTOR (R120). -/
def execEraseSector (m : Moment) (h : Head) (sector : BitVec 16) (s : State) : Answer :=
  during m s (submit h (.eraseSector sector))

/-- ERASE_COMPLETE (R120). -/
def execEraseComplete (m : Moment) (s : State) : Answer :=
  during m s eraseCompleted

/-- VERIFY_ACT (R123). -/
def execVerifyAct (m : Moment) (h : Head) (act : Byte) (s : State) : Answer :=
  during m s (submit h (.verifyAct act))

/-- VERIFY_COMPLETE (R123). -/
def execVerifyComplete (m : Moment) (s : State) : Answer :=
  during m s verifyCompleted

/-- CHECKSUM (R124). -/
def execChecksum (m : Moment) (h : Head) (address length : BitVec 32) (s : State) : Answer :=
  during m s (submit h (.checksum address length))

/-- CHECKSUM_COMPLETE (R124). -/
def execChecksumComplete (m : Moment) (s : State) : Answer :=
  during m s checksumCompleted

/-- PROTECT_ACT (R128). -/
def execProtectAct (m : Moment) (h : Head) (act : Byte) (s : State) : Answer :=
  during m s (submit h (.protectAct act))

/-- UNPROTECT_ACT (R128). -/
def execUnprotectAct (m : Moment) (h : Head) (act : Byte) (s : State) : Answer :=
  during m s (submit h (.unprotectAct act))

/-- PROTECTION_UPDATE_COMPLETE (R128). -/
def execProtectionUpdateComplete (m : Moment) (s : State) : Answer :=
  during m s protectionCompleted

/-- LOCK_SHOW (R130). -/
def execLockShow (m : Moment) (h : Head) (s : State) : Answer :=
  during m s (submit h .lockShow)

/-- READ_ECC (R117). -/
def execReadEcc (m : Moment) (h : Head) (s : State) : Answer :=
  during m s (submit h .readEcc)

/-- CLEAR_ECC (R117). -/
def execClearEcc (m : Moment) (h : Head) (s : State) : Answer :=
  during m s (submit h .clearEcc)

/-- LOAD_COMPLETE (R127). -/
def execLoadComplete (m : Moment) (s : State) : Answer :=
  during m s loadCompleted

/-- CENSUS (R174). -/
def execCensus (m : Moment) (h : Head) (s : State) : Answer :=
  during m s (submit h .census)

/-- CENSUS_WINDOW_EXPIRY (R176). -/
def execCensusWindowExpiry (m : Moment) (s : State) : Answer :=
  during m s censusExpired

/-- READ_CENSUS (R177). -/
def execReadCensus (m : Moment) (h : Head) (s : State) : Answer :=
  during m s (submit h .readCensus)

/-- SCREEN_TEST (R178). -/
def execScreenTest (m : Moment) (h : Head) (channel : Byte) (count : BitVec 16) (length : Byte) (gap : BitVec 16)
    (mode : Byte) (s : State) : Answer :=
  during m s (submit h (.screenTest channel count length gap mode))

/-- TEST_GAP_EXPIRY (R178). -/
def execTestGapExpiry (m : Moment) (s : State) : Answer :=
  during m s testGapExpired

/-- TEST_COMPLETION (R180). -/
def execTestCompletion (m : Moment) (s : State) : Answer :=
  during m s testCompleted

/-- STOP_TEST (R180). -/
def execStopTest (m : Moment) (h : Head) (s : State) : Answer :=
  during m s (submit h .stopTest)

/-- SILENCE_DEADLINE_EXPIRY (R23). -/
def execSilenceDeadlineExpiry (m : Moment) (s : State) : Answer :=
  during m s silenceExpiry

/-- HORIZON_DEADLINE_EXPIRY (R17). -/
def execHorizonDeadlineExpiry (m : Moment) (s : State) : Answer :=
  during m s horizonExpiry

/-- MARK_DEADLINE_EXPIRY (R52). -/
def execMarkDeadlineExpiry (m : Moment) (s : State) : Answer :=
  during m s markExpired

/-- FOLLOW_DEADLINE_EXPIRY (R56). -/
def execFollowDeadlineExpiry (m : Moment) (s : State) : Answer :=
  during m s followExpired

/-- WATCH_DEADLINE_EXPIRY (R58). -/
def execWatchDeadlineExpiry (m : Moment) (s : State) : Answer :=
  during m s watchExpired

/-- READING_DEADLINE_EXPIRY (R85). -/
def execReadingDeadlineExpiry (m : Moment) (channel : Fin 8) (s : State) : Answer :=
  during m s (readingExpired channel)

/-- GAP_DEADLINE_EXPIRY (R84). -/
def execGapDeadlineExpiry (m : Moment) (channel : Fin 8) (s : State) : Answer :=
  during m s (gapExpired channel)

/-- MESSAGE_EXPIRY (R105). -/
def execMessageExpiry (m : Moment) (placement : Nat) (s : State) : Answer :=
  during m s (messageExpired placement)

/-- STAGING_READ_END (R41). -/
def execStagingReadEnd (m : Moment) (s : State) : Answer :=
  during m s stagingReadEnded

/-- POWER_FAIL (R131). -/
def execPowerFail (cut : Interrupt) (s : State) : Answer :=
  .next (if s.powered then powerLost cut s else s)

end Sys2Proof.Machine
end

