-- ==== Sys2Proof/Machine/Dispatch.lean ====
section
/-! DEFINITION. One arm for each row of the opcode table. -/

namespace Sys2Proof.Machine

def exec (i : Instr) (s : State) : Host.Outcome State Fault Refusal :=
  match i with
  | .powerUp straps cut => Sys2Proof.Machine.execPowerUp straps cut s
  | .badFrame m port bytes => Sys2Proof.Machine.execBadFrame m port bytes s
  | .pos m dest source seq payload => Sys2Proof.Machine.execPos m dest source seq payload s
  | .go m dest source seq payload => Sys2Proof.Machine.execGo m dest source seq payload s
  | .req m dest source seq payload => Sys2Proof.Machine.execReq m dest source seq payload s
  | .foreignKindFrame m port dest source kind seq payload => Sys2Proof.Machine.execForeignKindFrame m port dest source kind seq payload s
  | .forwardDown m dest source kind seq payload => Sys2Proof.Machine.execForwardDown m dest source kind seq payload s
  | .forwardUp m dest source kind seq payload => Sys2Proof.Machine.execForwardUp m dest source kind seq payload s
  | .answer m dest source seq payload => Sys2Proof.Machine.execAnswer m dest source seq payload s
  | .testEcho m dest source seq payload => Sys2Proof.Machine.execTestEcho m dest source seq payload s
  | .dTransmissionComplete m => Sys2Proof.Machine.execDTransmissionComplete m s
  | .uTransmissionComplete m => Sys2Proof.Machine.execUTransmissionComplete m s
  | .invalidRequest m source payload => Sys2Proof.Machine.execInvalidRequest m source payload s
  | .identify m h => Sys2Proof.Machine.execIdentify m h s
  | .readStatus m h => Sys2Proof.Machine.execReadStatus m h s
  | .readCounters m h => Sys2Proof.Machine.execReadCounters m h s
  | .readConfig m h => Sys2Proof.Machine.execReadConfig m h s
  | .setConfig m h pairs => Sys2Proof.Machine.execSetConfig m h pairs s
  | .commitConfig m h => Sys2Proof.Machine.execCommitConfig m h s
  | .loadAct m h act => Sys2Proof.Machine.execLoadAct m h act s
  | .start m h force => Sys2Proof.Machine.execStart m h force s
  | .hold m h => Sys2Proof.Machine.execHold m h s
  | .resume m h => Sys2Proof.Machine.execResume m h s
  | .stop m h => Sys2Proof.Machine.execStop m h s
  | .unload m h => Sys2Proof.Machine.execUnload m h s
  | .restart m h => Sys2Proof.Machine.execRestart m h s
  | .restartTakesEffect => Sys2Proof.Machine.execRestartTakesEffect s
  | .setPointer m h label => Sys2Proof.Machine.execSetPointer m h label s
  | .showMessage m h level mask duration text => Sys2Proof.Machine.execShowMessage m h level mask duration text s
  | .clearMessage m h level mask => Sys2Proof.Machine.execClearMessage m h level mask s
  | .readStore m h address length => Sys2Proof.Machine.execReadStore m h address length s
  | .readStoreServed m => Sys2Proof.Machine.execReadStoreServed m s
  | .programStore m h address data => Sys2Proof.Machine.execProgramStore m h address data s
  | .programComplete m => Sys2Proof.Machine.execProgramComplete m s
  | .eraseSector m h sector => Sys2Proof.Machine.execEraseSector m h sector s
  | .eraseComplete m => Sys2Proof.Machine.execEraseComplete m s
  | .verifyAct m h act => Sys2Proof.Machine.execVerifyAct m h act s
  | .verifyComplete m => Sys2Proof.Machine.execVerifyComplete m s
  | .checksum m h address length => Sys2Proof.Machine.execChecksum m h address length s
  | .checksumComplete m => Sys2Proof.Machine.execChecksumComplete m s
  | .protectAct m h act => Sys2Proof.Machine.execProtectAct m h act s
  | .unprotectAct m h act => Sys2Proof.Machine.execUnprotectAct m h act s
  | .protectionUpdateComplete m => Sys2Proof.Machine.execProtectionUpdateComplete m s
  | .lockShow m h => Sys2Proof.Machine.execLockShow m h s
  | .readEcc m h => Sys2Proof.Machine.execReadEcc m h s
  | .clearEcc m h => Sys2Proof.Machine.execClearEcc m h s
  | .loadComplete m => Sys2Proof.Machine.execLoadComplete m s
  | .census m h => Sys2Proof.Machine.execCensus m h s
  | .censusWindowExpiry m => Sys2Proof.Machine.execCensusWindowExpiry m s
  | .readCensus m h => Sys2Proof.Machine.execReadCensus m h s
  | .screenTest m h channel count length gap mode => Sys2Proof.Machine.execScreenTest m h channel count length gap mode s
  | .testGapExpiry m => Sys2Proof.Machine.execTestGapExpiry m s
  | .testCompletion m => Sys2Proof.Machine.execTestCompletion m s
  | .stopTest m h => Sys2Proof.Machine.execStopTest m h s
  | .silenceDeadlineExpiry m => Sys2Proof.Machine.execSilenceDeadlineExpiry m s
  | .horizonDeadlineExpiry m => Sys2Proof.Machine.execHorizonDeadlineExpiry m s
  | .markDeadlineExpiry m => Sys2Proof.Machine.execMarkDeadlineExpiry m s
  | .followDeadlineExpiry m => Sys2Proof.Machine.execFollowDeadlineExpiry m s
  | .watchDeadlineExpiry m => Sys2Proof.Machine.execWatchDeadlineExpiry m s
  | .readingDeadlineExpiry m channel => Sys2Proof.Machine.execReadingDeadlineExpiry m channel s
  | .gapDeadlineExpiry m channel => Sys2Proof.Machine.execGapDeadlineExpiry m channel s
  | .messageExpiry m placement => Sys2Proof.Machine.execMessageExpiry m placement s
  | .stagingReadEnd m => Sys2Proof.Machine.execStagingReadEnd m s
  | .powerFail cut => Sys2Proof.Machine.execPowerFail cut s

end Sys2Proof.Machine
end

