-- ==== Sys2Proof/Machine/Step.lean ====
section
/-! DEFINITION. One step: the command at the front of the queue is taken, and an empty queue lets a microsecond pass. -/

namespace Sys2Proof.Machine

/-- A microsecond passes with no command: the show clock counts it (R1). DESIGN CHOICE (log 1). -/
def tick (s : State) : State := if s.powered then s.withClock (s.clock + 1) else s

/-- One step (log 1). -/
def step (s : State) : Host.Outcome State Fault Refusal :=
  match s.pending with
  | [] => .next (tick s)
  | c :: rest => exec c (s.withPending rest)

/-- The state with the command a word spells at the front of its queue. -/
def State.withFetchWord (s : State) (nbits w : Nat) : State :=
  match decodeTableWord nbits w with
  | some c => s.withPending (c :: s.pending)
  | none => s

end Sys2Proof.Machine
end

