-- ==== Sys2Proof/Safety.lean ====
section
/-! DEFINITION. What counts as a sound state of the engine: the ranges and forms that the manual gives its state and
that every step keeps. -/

namespace Sys2Proof.Machine

/-! ### Forms and ranges of the state -/

/-- The beat period lies in the device range (R5, R12). -/
def beatSound (beat : Nat) : Prop := Config.beatMin ≤ beat ∧ beat ≤ Config.beatMax

/-- The tracker's beat period and the default of the loaded act lie in the device range, and the smoothing weight in
its own (R5, R6, R29). -/
def beatsSound (s : State) : Prop :=
  beatSound s.tracker.beat ∧ (∀ b, s.table.beat = some b → beatSound b) ∧
    1 ≤ s.config.engine.smoothing ∧ s.config.engine.smoothing ≤ 16

/-- The bounded queues hold no more than their places (R79, R152, R162, R171). -/
def queuesSound (s : State) : Prop :=
  s.link.downFifo.length ≤ Config.passPlaces ∧ s.link.upFifo.length ≤ Config.passPlaces ∧
    s.management.fifo.length ≤ Config.requestPlaces ∧ s.management.notices.length ≤ Config.noticePlaces ∧
    ∀ n : Fin 8, s.channels[n].queue.length ≤ Config.pendingPlaces

/-- The store's bytes stand in their one form, and a program in flight stays inside the store (R112, R119). -/
def cellsSound (s : State) : Prop :=
  s.store.cells.wf = true ∧
    ∀ a data tag, s.store.flight = some ⟨.program a data, tag⟩ → a + data.length ≤ Config.storeSize

/-- Every placement holds a channel, and no channel stands in two placements of one level (R98). -/
def placementsSound (s : State) : Prop :=
  (∀ p ∈ s.placements, p.channels ≠ 0) ∧
    s.placements.Pairwise (fun p q => p.level = q.level → p.channels &&& q.channels = 0)

/-- The last-fired index lies below the pointer (R49). -/
def firedBelow (s : State) : Prop := ∀ i, s.firing.last = some i → i < s.firing.pointer

/-- While the show lock is set, no protection update is in flight (R130). -/
def lockSound (s : State) : Prop := s.store.lock = true → s.store.updating = false

/-! ### States in which a command takes its effect -/

/-- With power, a command of moment m sent in state s₀ finds state s: the clock, the condition of the store's units and
the reads of the operation in flight have moved on to that moment (R1, R114, R115). -/
structure Awake (m : Moment) (s₀ s : State) : Prop where
  powered : s₀.powered = true
  found : s = atMoment m s₀

/-- A request that arrives is taken at once (R163, R141). -/
structure Ready (m : Moment) (s₀ s : State) : Prop extends Awake m s₀ s where
  fifo : s.management.fifo = []
  handling : s.management.handling = none
  response : s.link.response = none
  restart : s.management.restart = .none

/-! ### What a command left alone, from the state it found -/

/-- Power, straps, waiting commands, clock, configuration and address as before. -/
def sameOutside (s t : State) : Prop :=
  t.pending = s.pending ∧ t.powered = s.powered ∧ t.straps = s.straps ∧ t.config = s.config ∧ t.clock = s.clock ∧
    t.link.address = s.link.address

/-- Tracker and cue table as before. -/
def sameScore (s t : State) : Prop := t.tracker = s.tracker ∧ t.table = s.table

/-- Staging and firing unit as before. -/
def sameCues (s t : State) : Prop := t.staging = s.staging ∧ t.firing = s.firing

/-- Channels and overlay messages as before. -/
def sameScreens (s t : State) : Prop := t.channels = s.channels ∧ t.placements = s.placements

/-- The store and its controller as before. -/
def sameStore (s t : State) : Prop := t.store = s.store

/-- Everything of port D as before. -/
def samePortD (s t : State) : Prop :=
  t.link.downFifo = s.link.downFifo ∧ t.link.slots = s.link.slots ∧ t.link.tool = s.link.tool ∧
    t.link.toolWaiting = s.link.toolWaiting ∧ t.link.dNext = s.link.dNext ∧ t.link.dLast = s.link.dLast ∧
    t.link.seqD = s.link.seqD ∧ t.link.coalesced = s.link.coalesced ∧ t.link.sendingD = s.link.sendingD

/-- Waiting requests, the request in handling and VALID as before. -/
def sameRequests (s t : State) : Prop :=
  t.management.fifo = s.management.fifo ∧ t.management.handling = s.management.handling ∧
    t.management.valid = s.management.valid

/-- Notice queue and discarded flag as before. -/
def sameNotices (s t : State) : Prop :=
  t.management.notices = s.management.notices ∧ t.management.discarded = s.management.discarded

/-- Show controller, tools and counters as before. -/
def sameRest (s t : State) : Prop := t.control = s.control ∧ t.tools = s.tools ∧ t.counters = s.counters

/-- All that a step can leave alone, but for port U, notices, show controller, tools and counters. -/
def sameBlocks (s t : State) : Prop :=
  sameOutside s t ∧ sameScore s t ∧ sameCues s t ∧ sameScreens s t ∧ sameStore s t ∧ samePortD s t ∧ sameRequests s t

/-- Nothing changed but one counter's increment, and port U's part in its COUNTER_HALF notice (R170). -/
def countedOnly (name : CounterName) (s t : State) : Prop :=
  sameBlocks s t ∧ t.control = s.control ∧ t.tools = s.tools ∧
    t.counters = s.counters.set name.index (bumped s.counters[name.index]) ∧
    (s.counters[name.index] ≠ 127 → t.link = s.link ∧ sameNotices s t)

/-- The blocks a store request leaves alone besides the store itself. -/
def sameBesideStore (s t : State) : Prop :=
  sameOutside s t ∧ sameScore s t ∧ sameCues s t ∧ sameScreens s t ∧ samePortD s t ∧ sameRequests s t

/-- What every fire keeps and sets (R59): lf is the cue below the pointer, the previous-fire time is the present;
tracker, table, show state, messages, protection, loaded region and every byte of the store are as before. -/
def FireKeeps (s t : State) : Prop :=
  t.firing.last = some (t.firing.pointer - 1) ∧ t.firing.previous = some s.clock ∧ sameOutside s t ∧ sameScore s t ∧
    t.placements = s.placements ∧ t.control = s.control ∧ sameRequests s t ∧ t.store.protection = s.store.protection ∧
    t.store.region = s.store.region ∧ ∀ a, t.store.cells.get? a = s.store.cells.get? a

/-- A fire was made and has moved the pointer on (R59). -/
def FiredPast (s t : State) : Prop := s.firing.pointer < t.firing.pointer ∧ FireKeeps s t

/-! ### Reports -/

/-- A report's source is present: LOCKED, COASTING or HELD (R8, R18, R20, R21). -/
def following (k : Tracker) : Prop := k.follow = .locked ∨ k.follow = .coasting ∨ k.follow = .held

/-- A report loses the source by its gap of sequence numbers (R8, R24). -/
def gapLoses (e : EngineConfig) (k : Tracker) (r : Report) : Prop :=
  k.anySeq = false ∧ 1 ≤ (r.seq - k.lastSeq - 1).toNat ∧ (r.seq - k.lastSeq - 1).toNat ≤ 127 ∧ e.onGap = true ∧
    e.gapLimit < (r.seq - k.lastSeq - 1).toNat ∧ following k

/-- A report passes the sequence check without a loss; `next` says it was the next in sequence (R8). -/
def passes (e : EngineConfig) (k : Tracker) (r : Report) (next : Bool) : Prop :=
  (next = true ∧ (k.anySeq = true ∨ (r.seq - k.lastSeq - 1).toNat = 0)) ∨
    (next = false ∧ k.anySeq = false ∧ 1 ≤ (r.seq - k.lastSeq - 1).toNat ∧ (r.seq - k.lastSeq - 1).toNat ≤ 127 ∧
      ¬ gapLoses e k r)

/-! ### Messages and responses -/

/-- What a placement's message is, whatever channels it still stands on (R98, R102). -/
def Placement.message (p : Placement) : Byte × Level × List Byte × Nat × Time × Option Time :=
  (p.tag, p.level, p.bytes, p.lines, p.placed, p.expiry)


/-- The response to a request (R164). -/
def responseTo (h : Head) (r : Request) (result : Result) (data : List Byte) : Response :=
  { dest := h.source, code := requestCode r, tag := h.tag, result := result, data := data }

/-- The response stands in the response slot, or is the frame in transmission on port U (R153, R157, R163). -/
def Answered (t : State) (r : Response) : Prop :=
  t.link.response = some r ∨
    ∃ f, t.link.sendingU = some f ∧ f.dest = r.dest ∧ f.source = t.link.address ∧ f.kind = kindResp ∧ f.payload = r.payload

/-- A request answered with nothing else done (R164). -/
def AnsweredOnly (s t : State) (r : Response) : Prop :=
  Answered t r ∧ sameBlocks s t ∧ sameRest s t ∧ sameNotices s t

/-- A notice admitted at the queue's tail, with others of the same step behind it (R171). -/
def Admitted (s t : State) (n : Notice) : Prop :=
  (s.management.notices ++ [⟨s.management.discarded, n⟩]) <+: t.management.notices

/-- The next notice of a kind finds a place, and none leaves the queue: port U is transmitting (R157, R171). -/
def roomFor (s : State) (k : NoticeKind) : Prop :=
  s.link.sendingU.isSome = true ∧ s.config.engine.notices[k.index] = true ∧ s.management.notices.length < Config.noticePlaces

/-! ### Fires -/

/-- The state whose firing unit has just fired cue i and has not yet armed the new pointer cue (R59 step 3). -/
def pastFire (i : Nat) (s : State) : State := s.withFiring (s.firing.fired i s.clock)

/-- Arming the pointer cue finds nothing due (R51). -/
def nothingDue (s : State) : Prop := dueFire (s.withFiring (armed s)) = .nothing

/-- The notices that a fire may send before its CUE_FIRED are disabled (R61). -/
def slipsDisabled (s : State) : Prop :=
  s.config.engine.notices[NoticeKind.titleSlip.index] = false ∧ s.config.engine.notices[NoticeKind.titleSkipped.index] = false

/-- Cue i was fired with a cause (R59, R61): the pointer is past it; where the new pointer cue is not due, the firing
unit is armed for it and each channel has been handed its item; CUE_FIRED says which cue it was. -/
def Fires (i : Nat) (cause : FireCause) (s t : State) : Prop :=
  i < t.firing.pointer ∧ FireKeeps s t ∧
    (nothingDue (pastFire i s) → t.firing = armed (pastFire i s) ∧
      t.channels = (forChannels (fireChannel i (cause = .resync)) s).channels) ∧
    (roomFor s .cueFired → slipsDisabled s →
      Admitted s t (.cueFired (s.table.labelAt i) i cause (millis s.clock) (projection s)))

/-- A run of due cues was fired (R54, R58, R61): its last cue q with a cause; those from the pointer up to q are counted
as overrun and named in one OVERRUN notice, which comes first among the step's notices (log 22), before the CUE_FIRED. -/
def FiresRun (q : Nat) (cause : FireCause) (s t : State) : Prop :=
  let p := s.firing.pointer
  let passed := Notice.overrun (q - p) (s.table.place p) (s.table.place (q - 1)) (s.table.place q)
  let fired := Notice.cueFired (s.table.labelAt q) q cause (millis s.clock) (projection s)
  q < t.firing.pointer ∧ FiredPast s t ∧ (q = p → Fires q cause s t) ∧
    (nothingDue (pastFire q s) → t.firing = armed (pastFire q s) ∧
      t.channels = (forChannels (fireChannel q false) (overrun q s)).channels ∧
      t.counters[CounterName.overrunCues.index].toNat = min 255 (s.counters[CounterName.overrunCues.index].toNat + (q - p))) ∧
    (p < q → roomFor s .overrun → Admitted s t passed) ∧
    (p < q → roomFor s .overrun → roomFor s .cueFired → s.management.notices.length + 1 < Config.noticePlaces →
      slipsDisabled s →
      (s.management.notices ++ [⟨s.management.discarded, passed⟩, ⟨false, fired⟩]) <+: t.management.notices) ∧
    (p < q → s.config.engine.notices[NoticeKind.overrun.index] = false → roomFor s .cueFired → slipsDisabled s →
      Admitted s t fired)

/-- A GO was ignored with a reason (R66), p and lf as it found them: nothing changes but LATE_GO for a late one, and the
notice. -/
def GoIgnored (reason : GoReason) (target : Label) (back : Bool) (f : Found) (s t : State) : Prop :=
  sameBlocks s t ∧ t.control = s.control ∧ t.tools = s.tools ∧
    t.counters = (if reason = .late then s.counters.set CounterName.lateGo.index (bumped s.counters[CounterName.lateGo.index])
      else s.counters) ∧
    (roomFor s .goIgnored → Admitted s t (.goIgnored reason target back s.control.show_ f.pointer f.last (millis s.clock)))

/-- A GO was handled in RUN (R63, R65), from state s, with p and lf as it was taken with. -/
def GoHandled (target : Label) (back : Bool) (f : Found) (s t : State) : Prop :=
  (back = false →
    (target.number = 0 → s.firing.pointer < s.table.cues.length → Fires s.firing.pointer .go s t) ∧
    (target.number = 0 → s.table.cues.length ≤ s.firing.pointer → GoIgnored .atEnd target false f s t) ∧
    (target.number ≠ 0 → s.table.search target = none → GoIgnored .unknown target false f s t) ∧
    (∀ i, target.number ≠ 0 → s.table.search target = some i →
      (i = s.firing.pointer → Fires i .go s t) ∧ (s.firing.pointer < i → Fires i .goSkip s t) ∧
      (i < s.firing.pointer → GoIgnored .late target false f s t))) ∧
  (back = true →
    (∀ i, target.number = 0 → s.firing.last = some (i + 1) → Fires i .back s t) ∧
    (target.number = 0 → (s.firing.last = none ∨ s.firing.last = some 0) → GoIgnored .range target true f s t) ∧
    (target.number ≠ 0 → s.table.search target = none → GoIgnored .unknown target true f s t) ∧
    (∀ i, target.number ≠ 0 → s.table.search target = some i →
      (∀ lf, s.firing.last = some lf → i ≤ lf → Fires i .back s t) ∧
      (s.firing.last = none → GoIgnored .range target true f s t) ∧
      (∀ lf, s.firing.last = some lf → lf < i → GoIgnored .range target true f s t)))

/-! ### Captions (R90, R91, R93, R94, R154) -/

/-- An enabled channel's title layer is on top: no message stands on it that is eligible (R90, R99). -/
def OnTop (s : State) (n : Fin 8) : Prop := s.config.channels[n].enabled = true ∧ topMessage s n = none

/-- A channel's title layer is out of sight, and its content says so: the channel is disabled and DARK, or an eligible
message stands on it and is its content (R90, R91). -/
def Beneath (s : State) (n : Fin 8) : Prop :=
  (s.config.channels[n].enabled = false ∧ s.channels[n].content = .dark) ∨
    (s.config.channels[n].enabled = true ∧ ∃ p, topMessage s n = some p ∧
      ∃ bytes lines, s.channels[n].content = .message p.level bytes lines)

/-- A channel's content is as before, and it wrote no caption (R91). -/
def NotWritten (n : Fin 8) (s t : State) : Prop :=
  t.channels[n].content = s.channels[n].content ∧ t.channels[n].number = s.channels[n].number ∧ samePortD s t

/-- A channel took a new content (R91). Muted or under a screen test it wrote no caption (R93, R94); else one with the
next number, which on a transmitting port D stands in its slot, where it has replaced an unsent one, counted (R154). -/
def Written (n : Fin 8) (content : Content) (s t : State) : Prop :=
  let k := s.config.channels[n]
  t.channels[n].content = content ∧
    ((k.muted = true ∨ withheld s n = true) → t.channels[n].number = s.channels[n].number ∧ samePortD s t) ∧
    (k.muted = false → withheld s n = false → t.channels[n].number = s.channels[n].number + 1 ∧
      (s.link.sendingD.isSome = true →
        t.link.slots = s.link.slots.set n (some (captionOf k.address n (s.channels[n].number + 1) k.lines content)) ∧
        (s.link.slots[n] = none → t.link.coalesced = s.link.coalesced) ∧
        (∀ c, s.link.slots[n] = some c → t.link.coalesced.toNat = min 65535 (s.link.coalesced.toNat + 1))))

/-! ### The end of a transmission on port D -/

/-- Show controller and counters as before, and the tools too, unless the frame sent was a running test's (R155, R178).
-/
def restAfter (x : Option ToolFrame) (s t : State) : Prop :=
  t.control = s.control ∧ t.counters = s.counters ∧ t.tools = (toolSent x s).tools ∧
    ((∀ n k len, x ≠ some (.test n k len true)) → t.tools = s.tools)

/-! ### Completions and acceptances -/

/-- No COUNTER_HALF notice comes between the last reads of an operation and its OP_DONE (R170): at most one unit is left
to read, or the kind is disabled. -/
def readsQuietly (s : State) : Prop :=
  s.store.readsLeft.length ≤ 1 ∨ s.config.engine.notices[NoticeKind.counterHalf.index] = false

/-- No queued read stands before the operation in flight's completion (R114). -/
def readsFree (s : State) : Prop := s.store.queue = [] ∨ s.store.readsLeft = []

/-- Everything but store, port U and notices as before: a store operation has ended (R118). -/
def CompletedBeside (s t : State) : Prop :=
  t.store.flight = none ∧ t.store.region = s.store.region ∧ t.store.lock = s.store.lock ∧ t.store.queue = s.store.queue ∧
    t.store.trap = s.store.trap ∧ sameBesideStore s t ∧ sameRest s t

/-- A reading operation has ended (R118): no byte and no flag of the store changed; counters, trap and notices may. -/
def ReadBeside (s t : State) : Prop :=
  t.store.flight = none ∧ t.store.region = s.store.region ∧ t.store.lock = s.store.lock ∧ t.store.queue = s.store.queue ∧
    t.store.protection = s.store.protection ∧ (∀ a, t.store.cells.get? a = s.store.cells.get? a) ∧
    sameBesideStore s t ∧ t.control = s.control ∧ t.tools = s.tools

/-- An operation was accepted and put in flight, and nothing else of the store changed (R118). -/
def AcceptedOnly (h : Head) (r : Request) (op : StoreOp) (s t : State) : Prop :=
  t.store = { s.store with flight := some ⟨op, h.tag⟩, reads := 0 } ∧
    Answered t (responseTo h r .accepted []) ∧ sameBesideStore s t ∧ t.tools = s.tools ∧ t.counters = s.counters ∧
    sameNotices s t

/-- A program or erase was accepted: no byte, flag, region or lock changed; the check reads may count and trap (R121). -/
def AcceptedBeside (s t : State) : Prop :=
  (∀ a, t.store.cells.get? a = s.store.cells.get? a) ∧ t.store.protection = s.store.protection ∧
    t.store.region = s.store.region ∧ t.store.lock = s.store.lock ∧ t.store.queue = s.store.queue ∧
    sameBesideStore s t ∧ t.control = s.control ∧ t.tools = s.tools

/-- The show entered RUN, whatever the arming then fired (R136, R138). -/
def EntersRun (s t : State) : Prop :=
  t.control = { s.control with show_ := .run } ∧ sameOutside s t ∧ sameScore s t ∧ t.placements = s.placements ∧
    sameRequests s t ∧ t.store.protection = s.store.protection ∧ t.store.region = s.store.region ∧
    ∀ a, t.store.cells.get? a = s.store.cells.get? a

/-- A channel cleared into a state by STOP or UNLOAD (R73, R95). -/
def ClearedTo (layer : Layer) (before after : Channel) : Prop :=
  after.layer = layer ∧ after.current = none ∧ after.next = none ∧ after.queue = [] ∧ after.shown = none ∧
    after.gap = none ∧ after.reading = before.reading ∧ after.slipMax = before.slipMax ∧ after.present = before.present

/-- The blocks a screen test leaves alone. -/
def TestBeside (s t : State) : Prop :=
  sameOutside s t ∧ sameScore s t ∧ sameCues s t ∧ t.placements = s.placements ∧ sameStore s t ∧
    t.control = s.control ∧ t.counters = s.counters ∧ sameRequests s t

end Sys2Proof.Machine
end

