-- ==== Sys2Proof/WellFormed.lean ====
section
/-! DEFINITION. Which commands are ones the block can receive as their row says: operands that fit a frame and the row
they stand in. The meanings take every command; these checks say which words of a row a sender may spell. -/

namespace Sys2Proof

/-- The payload fits a frame (R148). -/
def payloadFits (payload : List Byte) : Bool := decide (payload.length ≤ Config.payloadMax)

/-- The request a request row carries, with its head. -/
def Instr.request : Instr → Option (Head × Request)
  | .identify _ h => some (h, .identify)
  | .readStatus _ h => some (h, .readStatus)
  | .readCounters _ h => some (h, .readCounters)
  | .readConfig _ h => some (h, .readConfig)
  | .setConfig _ h pairs => some (h, .setConfig pairs)
  | .commitConfig _ h => some (h, .commitConfig)
  | .loadAct _ h act => some (h, .loadAct act)
  | .start _ h force => some (h, .start force)
  | .hold _ h => some (h, .hold)
  | .resume _ h => some (h, .resume)
  | .stop _ h => some (h, .stop)
  | .unload _ h => some (h, .unload)
  | .restart _ h => some (h, .restart)
  | .setPointer _ h label => some (h, .setPointer label)
  | .showMessage _ h level mask duration text => some (h, .showMessage level mask duration text)
  | .clearMessage _ h level mask => some (h, .clearMessage level mask)
  | .readStore _ h address length => some (h, .readStore address length)
  | .programStore _ h address data => some (h, .programStore address data)
  | .eraseSector _ h sector => some (h, .eraseSector sector)
  | .verifyAct _ h act => some (h, .verifyAct act)
  | .checksum _ h address length => some (h, .checksum address length)
  | .protectAct _ h act => some (h, .protectAct act)
  | .unprotectAct _ h act => some (h, .unprotectAct act)
  | .lockShow _ h => some (h, .lockShow)
  | .readEcc _ h => some (h, .readEcc)
  | .clearEcc _ h => some (h, .clearEcc)
  | .census _ h => some (h, .census)
  | .readCensus _ h => some (h, .readCensus)
  | .screenTest _ h channel count length gap mode => some (h, .screenTest channel count length gap mode)
  | .stopTest _ h => some (h, .stopTest)
  | .powerUp _ _ | .badFrame _ _ _ | .pos _ _ _ _ _ | .go _ _ _ _ _ | .req _ _ _ _ _
  | .foreignKindFrame _ _ _ _ _ _ _ | .forwardDown _ _ _ _ _ _ | .forwardUp _ _ _ _ _ _ | .answer _ _ _ _ _
  | .testEcho _ _ _ _ _ | .dTransmissionComplete _ | .uTransmissionComplete _ | .invalidRequest _ _ _
  | .restartTakesEffect | .readStoreServed _ | .programComplete _ | .eraseComplete _ | .verifyComplete _
  | .checksumComplete _ | .protectionUpdateComplete _ | .loadComplete _ | .censusWindowExpiry _ | .testGapExpiry _
  | .testCompletion _ | .silenceDeadlineExpiry _ | .horizonDeadlineExpiry _ | .markDeadlineExpiry _
  | .followDeadlineExpiry _ | .watchDeadlineExpiry _ | .readingDeadlineExpiry _ _ | .gapDeadlineExpiry _ _
  | .messageExpiry _ _ | .stagingReadEnd _ | .powerFail _ => none

/-- A request's list, text or data is one its parameters can carry (R164, R185). -/
def requestFits (h : Head) (r : Request) : Bool :=
  payloadFits (Machine.requestPayload r h.tag h.confirm) &&
    (match r with
     | .setConfig pairs => pairs.all Machine.pairSized
     | _ => true)

/-- The frame of a row that forwards it down (R149). -/
def goesDown (dest kind : Byte) (own : Byte) : Bool :=
  dest ≠ own && !(dest = 255 && (kind = Machine.kindPos || kind = Machine.kindGo))

/-- Whether the ports take a kind (R149, R150). -/
def portTakes : Port → Byte → Bool
  | .u, kind => kind = Machine.kindPos || kind = Machine.kindGo || kind = Machine.kindReq
  | .d, kind => kind = Machine.kindAnswer || kind = Machine.kindTest

/-- Whether a command is one that its row describes, at an engine of the given address. -/
def Instr.wf (own : Byte) (i : Instr) : Bool :=
  match i with
  | .badFrame _ _ bytes => (Machine.parseFrame bytes).isNone
  | .pos _ dest _ _ payload => (dest = own || dest = 255) && payloadFits payload
  | .go _ dest _ _ payload => (dest = own || dest = 255) && payloadFits payload
  | .req _ dest _ _ payload => dest = own && payloadFits payload
  | .foreignKindFrame _ port dest _ kind _ payload => dest = own && !portTakes port kind && payloadFits payload
  | .forwardDown _ dest _ kind _ payload => goesDown dest kind own && payloadFits payload
  | .forwardUp _ dest _ _ _ payload => dest ≠ own && payloadFits payload
  | .answer _ dest _ _ payload => dest = own && payloadFits payload
  | .testEcho _ dest _ _ payload => dest = own && payloadFits payload
  | .invalidRequest _ _ payload => (Machine.decodeRequest payload).isNone && payloadFits payload
  | _ =>
    match i.request with
    | some (h, r) => requestFits h r
    | none => true

end Sys2Proof
end

