-- ==== Sys2Proof/Certificates/Slice0/Obligations.lean ====
section
/-! DEFINITION. The statements for the provers. A statement about a command speaks of the state `s` that the command, sent in
state `s₀` with moment `m`, finds at that moment (Awake, Ready in Safety.lean). -/

open Sys2Proof Sys2Proof.Machine

/-- A step runs the front command (model: log 1) [95_what_each_step_holds.md]. -/
def Obligations.StepRunsTheFrontCommand : Prop :=
  ∀ (c : Instr) (rest : List Instr) (s : State), s.pending = c :: rest → step s = exec c (s.withPending rest)

/-- An idle step counts one microsecond (model: log 1) [R1]. -/
def Obligations.IdleStepCountsOneMicrosecond : Prop :=
  ∀ s : State, s.pending = [] →
    (s.powered = true → step s = .next (s.withClock (s.clock + 1))) ∧ (s.powered = false → step s = .next s)

/-- Without power no command but POWER_UP has an effect (model: log 11) [R131, R142]. -/
def Obligations.WithoutPowerNothingHappens : Prop :=
  ∀ (c : Instr) (s : State), s.powered = false → (∀ straps cut, c ≠ .powerUp straps cut) → exec c s = .next s

/-- Reset leaves the blocks at their power-up values, and is sound (R5, R29, R49, R73, R133, R146, R161, R173). -/
def Obligations.ResetIsSound : Prop :=
  let s := State.reset
  s.clock = 0 ∧ s.control = ⟨.dark, none, false⟩ ∧ s.tracker.follow = .idle ∧ s.tracker.beat = 1000000 ∧
    s.tracker.anySeq = true ∧ s.tracker.silence = none ∧ s.tracker.horizon = none ∧ s.table.cues = [] ∧
    s.table.langs = [] ∧ s.table.beat = none ∧ s.table.map = Vector.replicate 6 .none ∧ s.firing = ⟨0, none, none, .none, none⟩ ∧
    (∀ n : Fin 8, s.channels[n].layer = .off ∧ s.channels[n].queue = [] ∧ s.channels[n].content = .dark ∧
      s.channels[n].number = 0 ∧ s.channels[n].present = .unknown) ∧
    s.placements = [] ∧ s.link.downFifo = [] ∧ s.link.upFifo = [] ∧ s.link.slots = Vector.replicate 8 none ∧
    s.link.tool = none ∧ s.link.response = none ∧ s.link.dNext = .captions ∧ s.link.dLast = 7 ∧ s.link.uNext = .notices ∧
    s.link.seqD = 0 ∧ s.link.seqU = 0 ∧ s.link.coalesced = 0 ∧ s.management.fifo = [] ∧ s.management.valid = false ∧
    s.management.notices = [] ∧ s.management.discarded = false ∧ s.counters = Vector.replicate 14 0 ∧
    s.tools.running = .none ∧ s.tools.list = [] ∧ s.store.flight = none ∧ s.store.queue = [] ∧ s.store.region = none ∧
    s.store.lock = false ∧ s.store.trap = none ∧
    beatsSound s ∧ queuesSound s ∧ cellsSound s ∧ placementsSound s ∧ firedBelow s ∧ lockSound s ∧
    ∀ m : Moment, Ready m s (atMoment m s)

/-- POWER_UP resets every block and samples the straps (R142, R147, R113, R131). -/
def Obligations.PowerUpResetsTheEngine : Prop :=
  ∀ (straps : BitVec 4) (cut : Interrupt) (s : State), ∃ t, exec (.powerUp straps cut) s = .next t ∧
    t.powered = true ∧ t.pending = s.pending ∧ t.clock = 0 ∧ t.link = Link.initial (224 + straps.setWidth 8) ∧
    t.control = ⟨.dark, none, false⟩ ∧ t.config = Configuration.initial ∧ t.management = Management.initial ∧
    t.tracker = Tracker.initial ∧ t.table = CueTable.empty ∧ t.staging = Staging.initial ∧ t.firing = Firing.initial ∧
    t.channels = Vector.replicate 8 Channel.initial ∧ t.placements = [] ∧ t.counters = Vector.replicate 14 0 ∧
    t.tools = Tools.initial ∧ t.store.flight = none ∧ t.store.queue = [] ∧ t.store.region = none ∧ t.store.lock = false ∧
    t.store.trap = none ∧
    (s.store.flight = none → (∀ a, t.store.cells.get? a = s.store.cells.get? a) ∧ t.store.protection = s.store.protection)

/-- After POWER_FAIL each byte and flag is at its old or its new value (volatile state gone at once: model, log 11)
[R131]. -/
def Obligations.InterruptedOperationLeavesOldOrNew : Prop :=
  ∀ (cut : Interrupt) (s : State), s.powered = true → ∃ t, exec (.powerFail cut) s = .next t ∧
    t.powered = false ∧ t.pending = s.pending ∧ t.store.flight = none ∧ t.store.region = none ∧ t.store.lock = false ∧
    (∀ a₀ data tag, s.store.flight = some ⟨.program a₀ data, tag⟩ → ∀ a,
      t.store.cells.get? a = s.store.cells.get? a ∨
        (a₀ ≤ a ∧ a < a₀ + data.length ∧ t.store.cells.get? a = data[a - a₀]?)) ∧
    (∀ sector tag, s.store.flight = some ⟨.erase sector, tag⟩ → ∀ a,
      t.store.cells.get? a = s.store.cells.get? a ∨ (a / 4096 = sector ∧ t.store.cells.get? a = none)) ∧
    ((∀ a₀ data tag, s.store.flight ≠ some ⟨.program a₀ data, tag⟩) → (∀ sector tag, s.store.flight ≠ some ⟨.erase sector, tag⟩) →
      ∀ a, t.store.cells.get? a = s.store.cells.get? a) ∧
    (∀ act tag, s.store.flight = some ⟨.protect act, tag⟩ →
      t.store.protection = s.store.protection ∨ t.store.protection = setFlag s.store.protection act true) ∧
    (∀ act tag, s.store.flight = some ⟨.unprotect act, tag⟩ →
      t.store.protection = s.store.protection ∨ t.store.protection = setFlag s.store.protection act false) ∧
    (s.store.updating = false → t.store.protection = s.store.protection)

/-- Received bytes are a good frame exactly when they are the bytes of a frame with a payload of at most 240 bytes
(R148, R182, R188). -/
def Obligations.FramesParseExactlyWhenGood : Prop :=
  ∀ (bytes : List Byte) (f : Frame),
    parseFrame bytes = some f ↔ bytes = f.bytes ∧ f.payload.length ≤ Config.payloadMax

/-- Every request decodes from its own payload (R164, R184, R185). -/
def Obligations.RequestsDecodeAsEncoded : Prop :=
  ∀ (h : Head) (r : Request), requestFits h r = true → decodeRequest (requestPayload r h.tag h.confirm) = some r

/-- A bad frame counts U_CHECK or D_CHECK, a frame of a foreign kind BAD_KIND, and nothing else happens (R148, R149,
R150, R159, R170). -/
def Obligations.BadAndForeignFramesAreCounted : Prop :=
  (∀ (m : Moment) (port : Port) (bytes : List Byte) (s₀ s : State), Awake m s₀ s → parseFrame bytes = none →
      ∃ t, exec (.badFrame m port bytes) s₀ = .next t ∧
        countedOnly (match port with | .u => .uCheck | .d => .dCheck) s t) ∧
    (∀ (m : Moment) (port : Port) (dest source kind seq : Byte) (payload : List Byte) (s₀ s : State), Awake m s₀ s →
      dest = s.link.address → portTakes port kind = false → payloadFits payload = true →
      ∃ t, exec (.foreignKindFrame m port dest source kind seq payload) s₀ = .next t ∧ countedOnly .badKind s t)

/-- A forwarded frame joins its FIFO unchanged, or is dropped and counted at eight (R149, R150, R152, R156, R157). -/
def Obligations.ForwardedFramesJoinTheirFifo : Prop :=
  (∀ (m : Moment) (dest source kind seq : Byte) (payload : List Byte) (s₀ s : State), Awake m s₀ s →
      goesDown dest kind s.link.address = true → payloadFits payload = true →
      let f : Frame := { dest := dest, source := source, kind := kind, seq := seq, payload := payload }
      ∃ t, exec (.forwardDown m dest source kind seq payload) s₀ = .next t ∧ sameOutside s t ∧ sameScore s t ∧
        sameCues s t ∧ sameScreens s t ∧ sameStore s t ∧ t.control = s.control ∧
        (s.link.downFifo.length < 8 → s.link.sendingD.isSome = true →
          t.link = { s.link with downFifo := s.link.downFifo ++ [f] } ∧ t.tools = s.tools ∧ t.counters = s.counters ∧
            sameNotices s t) ∧
        (8 ≤ s.link.downFifo.length → countedOnly .dPassDrop s t) ∧
        (s.link.sendingD = none → (∀ n : Fin 8, s.link.slots[n] = none) → s.link.tool = none → s.link.downFifo = [] →
          t.link = { s.link with sendingD := some ⟨f, none⟩, dNext := .captions } ∧ t.tools = s.tools ∧
            t.counters = s.counters ∧ sameNotices s t)) ∧
    (∀ (m : Moment) (dest source kind seq : Byte) (payload : List Byte) (s₀ s : State), Awake m s₀ s →
      dest ≠ s.link.address → payloadFits payload = true →
      let f : Frame := { dest := dest, source := source, kind := kind, seq := seq, payload := payload }
      ∃ t, exec (.forwardUp m dest source kind seq payload) s₀ = .next t ∧ sameOutside s t ∧ sameScore s t ∧
        sameCues s t ∧ sameScreens s t ∧ sameStore s t ∧ t.control = s.control ∧ t.tools = s.tools ∧
        (s.link.upFifo.length < 8 → s.link.sendingU.isSome = true →
          t.link = { s.link with upFifo := s.link.upFifo ++ [f] } ∧ t.counters = s.counters ∧ sameNotices s t) ∧
        (8 ≤ s.link.upFifo.length → countedOnly .uPassDrop s t) ∧
        (s.link.sendingU = none → s.link.response = none → s.management.notices = [] → s.link.upFifo = [] →
          t.link = { s.link with sendingU := some f, uNext := .notices } ∧ t.counters = s.counters ∧ sameNotices s t))

/-- A sample is judged by the rate window, clamped and smoothed into T (R11, R12). -/
def Obligations.SmoothedBeatFollowsTheFormula : Prop :=
  ∀ (e : EngineConfig) (k : Tracker) (r : Report), beatSound k.beat → 1 ≤ e.smoothing → e.smoothing ≤ 16 →
    let raw := rawSample k r
    let out := takeSample e k r
    (out.2 = true → out.1.beat = k.beat) ∧
    (out.2 = false ↔ (e.onRate = false ∨ inWindow k.beat e.rateWindow raw = true)) ∧
    (out.2 = false →
      (150000 ≤ raw → raw ≤ 3000000 →
        (out.1.beat : Int) = k.beat + (((raw : Int) - k.beat) * e.smoothing).tdiv 16 ∧
          (e.smoothing = 16 → out.1.beat = raw)) ∧
      (raw < 150000 → (out.1.beat : Int) = k.beat + ((150000 - (k.beat : Int)) * e.smoothing).tdiv 16) ∧
      (3000000 < raw → (out.1.beat : Int) = k.beat + ((3000000 - (k.beat : Int)) * e.smoothing).tdiv 16)) ∧
    beatSound out.1.beat

/-- The projection is the lesser of three terms and never below the anchor (R15). -/
def Obligations.ProjectionStaysBelowTheHorizon : Prop :=
  ∀ (k : Tracker) (h : Nat) (now : Time),
    ((k.follow = .locked ∨ k.follow = .coasting) →
      k.projected h now =
        min (min (k.anchorPos + (now - k.anchorTime).toNat * 480 / k.beat) (k.anchorPos + 480 * h)) 16777215) ∧
    ((k.follow = .held ∨ k.follow = .lost ∨ k.follow = .idle) → k.projected h now = k.anchorPos) ∧
    (k.anchorPos ≤ 16777215 → k.anchorPos ≤ k.projected h now ∧ k.projected h now ≤ min (k.anchorPos + 480 * h) 16777215)

/-- The arrival answer is R16's table, and its time is the first at which the projection reaches the position (R15,
R16). -/
def Obligations.ArrivalIsWhenTheProjectionReaches : Prop :=
  ∀ (k : Tracker) (h p : Nat),
    (k.settle = true → k.arrival h p = .noTime) ∧
    (k.settle = false →
      ((k.follow = .lost ∨ k.follow = .idle) → k.arrival h p = .noTime) ∧
      (k.follow = .held → p ≤ k.anchorPos → k.arrival h p = .already) ∧
      (k.follow = .held → k.anchorPos < p → k.arrival h p = .noTime) ∧
      ((k.follow = .locked ∨ k.follow = .coasting) →
        (p ≤ k.anchorPos → k.arrival h p = .reachedAt k.anchorTime) ∧
        (k.anchorPos < p → p ≤ k.anchorPos + 480 * h →
          k.arrival h p = .reachedAt (k.anchorTime + BitVec.ofNat 48 (((p - k.anchorPos) * k.beat + 479) / 480))) ∧
        (k.anchorPos + 480 * h < p → k.arrival h p = .noTime))) ∧
    (0 < k.beat → k.anchorPos < p → ∀ us : Nat,
      p ≤ k.anchorPos + us * 480 / k.beat ↔ ((p - k.anchorPos) * k.beat + 479) / 480 ≤ us)

/-- A POS frame is taken by the tracker, and discarded in DARK (R7, R149, R186). -/
def Obligations.ReportsReachTheTracker : Prop :=
  (∀ (m : Moment) (dest source seq : Byte) (payload : List Byte) (s₀ s : State), Awake m s₀ s → payloadFits payload = true →
      (dest = s.link.address ∨ dest = 255) → s.control.show_ ≠ .dark →
      ∃ t, exec (.pos m dest source seq payload) s₀ = .next t ∧
        t.tracker = (takeReport s.config.engine s.tracker (reportOf seq payload s.clock)).tracker ∧
        sameOutside s t ∧ t.table = s.table ∧ t.control = s.control ∧ t.placements = s.placements ∧ sameRequests s t ∧
        t.store.protection = s.store.protection ∧ t.store.flight = s.store.flight ∧
        ∀ a, t.store.cells.get? a = s.store.cells.get? a) ∧
    (∀ (m : Moment) (source seq : Byte) (payload : List Byte) (s₀ s : State), Awake m s₀ s → payloadFits payload = true →
      s.control.show_ = .dark →
      ∃ t, exec (.pos m s.link.address source seq payload) s₀ = .next t ∧ sameBlocks s t ∧ sameRest s t ∧
        t.link = s.link ∧ sameNotices s t)

/-- Each report rule gives the tracker and the event it states (R8, R9, R12, R14, R18, R19, R20, R21, R22, R24, R25,
R27). -/
def Obligations.SequenceCheckJudgesReports : Prop :=
  ∀ (e : EngineConfig) (k : Tracker) (r : Report) (next : Bool),
    let d := (r.seq - k.lastSeq - 1).toNat
    let out := takeReport e k r
    let seen : Tracker := { k with anySeq := false, lastSeq := r.seq }
    let based : Tracker :=
      { seen with anchorPos := r.pos, anchorTime := r.time, basePos := r.pos, baseTime := r.time }
    let locked := fun j : Tracker => { j with
      follow := .locked, horizon := some (later r.time (e.horizon * j.beat)),
      silence := some (later r.time (1000 * e.silenceLimit)) }
    let held := fun j : Tracker => { j with follow := .held, horizon := none, silence := none }
    let lost := fun cause : FollowCause => { based with
      follow := .lost, latch := k.latch.add cause, silence := none, horizon := none, rejects := 0, candidate := true,
      settle := k.settle || r.jump }
    let event := fun (kind : ReportKind) (seek : Option Nat) => some (ReportEvent.mk kind k.anchorPos out.tracker.anchorPos
      out.tracker.anchorTime k.follow out.tracker.follow seek (k.settle && !out.tracker.settle))
    let flagged : ReportKind := if r.jump then .jump else if r.hold then .hold else .normal
    let jumped := if r.jump then some r.pos else none
    let tracking := k.follow = .locked ∨ k.follow = .coasting
    let raw := rawSample k r
    let sampled := e.onRate = false ∨ inWindow k.beat e.rateWindow raw = true
    (k.anySeq = true → out.gaps = 0) ∧
    (k.anySeq = false → (d = 0 → out.gaps = 0) ∧ (1 ≤ d → d ≤ 127 → out.gaps = 1) ∧ (128 ≤ d → out = quiet k)) ∧
    (gapLoses e k r → out.tracker = lost .gap ∧ out.event = event flagged jumped ∧ out.rejects = 0) ∧
    (passes e k r next →
      (k.follow = .idle → out.event = event flagged jumped ∧
        out.tracker = (if r.hold then held else locked) { based with settle := k.settle || r.jump }) ∧
      (following k → r.jump = true → out.event = event .jump (some r.pos) ∧
        out.tracker = (if r.hold then held else locked) { based with settle := true }) ∧
      (following k → r.jump = false → r.pos < k.anchorPos → e.onReverse = false → out.event = event .jump (some r.pos) ∧
        out.tracker = (if r.hold then held else locked) { based with settle := true }) ∧
      (following k → r.jump = false → r.pos < k.anchorPos → e.onReverse = true → out.event = event flagged none ∧
        out.tracker = lost .reverse) ∧
      (following k → r.jump = false → k.anchorPos ≤ r.pos → r.hold = true → out.event = event .hold none ∧
        out.tracker = held based) ∧
      (k.follow = .held → r.jump = false → k.anchorPos ≤ r.pos → r.hold = false → out.event = event .holdEnd none ∧
        out.tracker = locked { based with settle := k.settle && decide (r.pos = k.anchorPos) }) ∧
      (tracking → r.jump = false → r.hold = false →
        (r.pos = k.anchorPos → out.event = none ∧ out.rejects = 0 ∧
          out.tracker = { seen with silence := some (later r.time (1000 * e.silenceLimit)) }) ∧
        (k.anchorPos < r.pos → r.pos < k.basePos + 120 → out.event = event .normal none ∧ out.rejects = 0 ∧
          out.tracker = locked { seen with anchorPos := r.pos, anchorTime := r.time, settle := false }) ∧
        (k.anchorPos < r.pos → k.basePos + 120 ≤ r.pos → sampled → out.event = event .normal none ∧ out.rejects = 0 ∧
          out.tracker = locked { based with
            settle := false, rejects := 0, beat := smoothed k.beat (clampSample raw) e.smoothing }) ∧
        (k.anchorPos < r.pos → k.basePos + 120 ≤ r.pos → ¬ sampled → out.event = event .normal none ∧ out.rejects = 1 ∧
          (k.rejects + 1 < 3 → out.tracker = locked { based with settle := false, rejects := k.rejects + 1 }) ∧
          (3 ≤ k.rejects + 1 → out.tracker = lost .rate))) ∧
      (k.follow = .lost →
        let joins := k.candidate = true ∧ next = true ∧ r.hold = false ∧ r.jump = false ∧ k.anchorPos ≤ r.pos
        (joins → k.basePos + 120 ≤ r.pos → 150000 ≤ raw → raw ≤ 3000000 → out.event = event .normal none ∧
          out.tracker = locked { based with settle := false, rejects := 0, beat := raw }) ∧
        (joins → r.pos < k.basePos + 120 → k.anchorPos < r.pos → out.event = event .normal none ∧
          out.tracker = { seen with anchorPos := r.pos, anchorTime := r.time, settle := false }) ∧
        (joins → r.pos < k.basePos + 120 → r.pos = k.anchorPos → out.event = none ∧ out.tracker = seen) ∧
        ((¬ joins ∨ (k.basePos + 120 ≤ r.pos ∧ (raw < 150000 ∨ 3000000 < raw))) → out.event = event flagged jumped ∧
          out.tracker = { based with candidate := true, settle := k.settle || r.jump })))

/-- The silence deadline loses the source, the horizon deadline coasts (R17, R23, R24). -/
def Obligations.TrackerDeadlinesChangeTheFollowState : Prop :=
  (∀ (m : Moment) (d : Time) (s₀ s : State), Awake m s₀ s → s.tracker.silence = some d → due d s.clock = true →
      (s.tracker.follow = .locked ∨ s.tracker.follow = .coasting) → s.config.engine.onSilence = true →
      ∃ t, exec (.silenceDeadlineExpiry m) s₀ = .next t ∧
        t.tracker = { s.tracker with
          follow := .lost, latch := { s.tracker.latch with silence := true }, silence := none, horizon := none,
          rejects := 0, candidate := false, anySeq := true } ∧
        sameOutside s t ∧ t.table = s.table ∧ t.control = s.control ∧ t.placements = s.placements ∧ sameRequests s t ∧
        ∀ a, t.store.cells.get? a = s.store.cells.get? a) ∧
    (∀ (m : Moment) (d : Time) (s₀ s : State), Awake m s₀ s → s.tracker.horizon = some d → due d s.clock = true →
      s.tracker.follow = .locked →
      ∃ t, exec (.horizonDeadlineExpiry m) s₀ = .next t ∧
        t.tracker = { s.tracker with follow := .coasting, horizon := none } ∧
        sameOutside s t ∧ t.table = s.table ∧ t.control = s.control ∧ t.placements = s.placements ∧ sameRequests s t ∧
        ∀ a, t.store.cells.get? a = s.store.cells.get? a)

/-- A GO fires the cue it names, or is ignored with its reason, in RUN and out of a hold it releases (R59, R61, R62,
R63, R65, R66, R138). -/
def Obligations.GoFiresTheNextCue : Prop :=
  (∀ (m : Moment) (source seq : Byte) (payload : List Byte) (s₀ s : State), Awake m s₀ s → payloadFits payload = true →
      s.control.show_ = .run →
      ∃ t, exec (.go m s.link.address source seq payload) s₀ = .next t ∧
        GoHandled (labelAt payload 0) ((fieldByte payload 3).getLsbD 0) (found s) s t) ∧
    (∀ (m : Moment) (source seq : Byte) (payload : List Byte) (s₀ s : State), Awake m s₀ s → payloadFits payload = true →
      s.control.show_ = .hold → s.config.engine.goReleases = true →
      let r := resumeShow .go none s
      ∃ t, exec (.go m s.link.address source seq payload) s₀ = .next t ∧ EntersRun s t ∧
        (roomFor s .showState → Admitted s t (.showState .hold .run .go none s.control.act (pointerPlace s)
          (lastPlace s) (millis s.clock))) ∧
        EntersRun s r ∧
        (nothingDue (setShow .run s) → r.firing = armed (setShow .run s) ∧ sameScreens s r ∧ r.staging = s.staging ∧
          sameStore s r ∧ samePortD s r ∧ r.tools = s.tools ∧ r.counters = s.counters) ∧
        GoHandled (labelAt payload 0) ((fieldByte payload 3).getLsbD 0) (found s) r t)

/-- A GO outside RUN is ignored with reason STATE unless it releases a hold (R62, R66). -/
def Obligations.GoIsIgnoredOutsideRun : Prop :=
  ∀ (m : Moment) (source seq : Byte) (payload : List Byte) (s₀ s : State), Awake m s₀ s → payloadFits payload = true →
    (s.control.show_ = .dark ∨ s.control.show_ = .preset ∨ (s.control.show_ = .hold ∧ s.config.engine.goReleases = false)) →
    ∃ t, exec (.go m s.link.address source seq payload) s₀ = .next t ∧ sameBlocks s t ∧ sameRest s t ∧
      (roomFor s .goIgnored → Admitted s t (.goIgnored .state (labelAt payload 0) ((fieldByte payload 3).getLsbD 0)
        s.control.show_ (pointerPlace s) (lastPlace s) (millis s.clock)))

/-- A passed deadline fires, and a fire hands each served channel its item (the place of OVERRUN: model, log 22) [R52,
R54, R56, R58, R60, R61, R79, R80, R81]. -/
def Obligations.PassedDeadlinesFire : Prop :=
  (∀ (m : Moment) (d : Time) (s₀ s : State), Awake m s₀ s → s.control.show_ = .run → s.firing.trigger = .mark d →
      due d s.clock = true →
      let q := stackedRun s s.table.cues.length s.firing.pointer
      ∃ t, exec (.markDeadlineExpiry m) s₀ = .next t ∧ FiresRun q .mark s t) ∧
    (∀ (m : Moment) (d : Time) (kept : Bool) (s₀ s : State), Awake m s₀ s → s.control.show_ = .run →
      s.firing.trigger = .follow d kept → due d s.clock = true →
      ∃ t, exec (.followDeadlineExpiry m) s₀ = .next t ∧ FiredPast s t ∧ Fires s.firing.pointer .follow s t) ∧
    (∀ (m : Moment) (w : Watch) (s₀ s : State), Awake m s₀ s → s.control.show_ = .run → s.firing.watch = some w →
      isDue w.deadline s.clock = true → s.firing.pointer < w.cue →
      let q := stackedRun s s.table.cues.length w.cue
      ∃ t, exec (.watchDeadlineExpiry m) s₀ = .next t ∧ FiresRun q .overrun s t) ∧
    (∀ (s : State) (start : Nat),
      let q := stackedRun s s.table.cues.length start
      start ≤ q ∧
        (∀ j, start < j → j ≤ q → ∃ c, s.table.cues[j]? = some c ∧ c.trigger = .mark ∧ markDue s c = true) ∧
        (∀ c, s.table.cues[q + 1]? = some c → c.trigger = .mark → markDue s c = false)) ∧
    (∀ (i : Nat) (resync : Bool) (n : Fin 8) (s : State),
      let made := fun (lang : Nat) (kind : ItemKind) (text : Option TitleText) =>
        Item.mk i (s.table.labelAt i) kind lang text s.clock resync false
      (servedBy s n = none → fireChannel i resync n s = s) ∧
      (∀ lang c, servedBy s n = some lang → s.table.cues[i]? = some c →
        ((c.slots[lang]? = none ∨ c.slots[lang]? = some .absent) → fireChannel i resync n s = s) ∧
        (c.slots[lang]? = some .blank → fireChannel i resync n s = itemArrives n (made lang .blank none) s) ∧
        (∀ a, c.slots[lang]? = some (.text a) →
          (∀ x, s.staging.find ⟨i, lang⟩ = some (.ready x) →
            fireChannel i resync n s = itemArrives n (made lang .title (some x)) s) ∧
          (s.staging.find ⟨i, lang⟩ = some .failed →
            fireChannel i resync n s = itemArrives n (made lang .blank none) s) ∧
          (s.staging.find ⟨i, lang⟩ = none →
            fireChannel i resync n s = itemArrives n (made lang .title none) (awaitText ⟨i, lang⟩ n s))))) ∧
    (∀ (n : Fin 8) (i : Item) (s : State),
      let c := s.channels[n]
      let l := s.languageOf n
      let u := itemArrives n i s
      (c.layer = .off → u.channels = s.channels) ∧
      (i.resync = false → c.queue.length < 3 →
        (c.layer = .gap → u = s.withChannel n { c with queue := c.queue ++ [i] }) ∧
        ((c.layer = .blank ∨ c.layer = .settled) → u = release n (s.withChannel n { c with queue := c.queue ++ [i] })) ∧
        (∀ sh d, c.layer = .showing → c.shown = some sh → c.reading = some d →
          let sooner := earlier d (later sh.at_ (1000 * ((sh.minimum * l.catchUp + 99) / 100)))
          (due sooner s.clock = false →
            u = s.withChannel n { c with queue := c.queue ++ [i], reading := some sooner }) ∧
          (due sooner s.clock = true →
            u = release n (s.withChannel n { c with queue := c.queue ++ [i], layer := .settled, reading := none })))) ∧
      (∀ x rest, i.resync = false → c.layer = .gap → c.queue = x :: rest → 3 ≤ c.queue.length →
        u.channels = s.channels.set n { c with queue := rest ++ [i] } ∧
          u.counters = s.counters.set CounterName.skippedTitles.index (bumped s.counters[CounterName.skippedTitles.index]) ∧
          (roomFor s .titleSkipped →
            Admitted s u (.titleSkipped n x.cue x.label x.kind (millis x.fired) x.awaiting))) ∧
      (i.resync = true → c.layer ≠ .off → u.channels[n].next = none ∧ u.channels[n].gap = none ∧
        (i.kind = .title → ∀ x, i.text = some x →
          u.channels[n].layer = .showing ∧ u.channels[n].current = some i ∧ u.channels[n].queue = [] ∧
            u.channels[n].shown = some ⟨s.clock, min l.cap (l.base + x.chars * l.perChar)⟩ ∧
            u.channels[n].reading = some (later s.clock (1000 * min l.cap (l.base + x.chars * l.perChar)))) ∧
        (i.kind = .blank → u.channels[n].layer = .blank ∧ u.channels[n].current = none ∧ u.channels[n].queue = [] ∧
          u.channels[n].reading = c.reading) ∧
        (i.kind = .title → i.text = none → u.channels[n].layer = .blank ∧ u.channels[n].current = none ∧
          u.channels[n].queue = [{ i with late := true }])))

/-- Every step keeps the last-fired index below the pointer (R49). -/
def Obligations.LastFiredStaysBelowThePointer : Prop :=
  ∀ s t : State, firedBelow s → step s = .next t → firedBelow t

/-- SET_POINTER places the pointer, removes lf and flushes staging (R40, R44, R69, R71). -/
def Obligations.SetPointerPlacesThePointer : Prop :=
  ∀ (m : Moment) (h : Head) (label : Label) (i : Nat) (s₀ s : State), Ready m s₀ s →
    (s.control.show_ = .preset ∨ s.control.show_ = .hold) →
    ((label.number = 0 ∧ i = 0) ∨ (label.number ≠ 0 ∧ s.table.search label = some i)) →
    ∃ t, exec (.setPointer m h label) s₀ = .next t ∧ Answered t (responseTo h (.setPointer label) .ok []) ∧
      t.firing.pointer = i ∧ t.firing.last = none ∧ t.firing.previous = none ∧ t.firing.watch = none ∧
      (s.control.show_ = .preset → t.firing.trigger = .none) ∧
      (∀ c k, s.control.show_ = .hold → s.table.cues[i]? = some c → c.trigger = .count k → t.firing.trigger = .count k) ∧
      (∀ c, s.table.cues[i]? = some c → (∀ k, c.trigger ≠ .count k) → t.firing.trigger = .none) ∧
      t.staging.entries = [] ∧ t.staging.awaited = s.staging.awaited ∧
      sameOutside s t ∧ sameScore s t ∧ sameScreens s t ∧ samePortD s t ∧ sameRequests s t ∧ sameRest s t ∧
      sameNotices s t ∧ t.store = { s.store with queue := t.store.queue, suspended := t.store.suspended }

/-- An expired reading deadline settles the title and releases the head of the queue, with its caption (R78, R82, R83,
R85, R88, R90, R91, R93, R94, R154). -/
def Obligations.ReadingExpirySettlesTheTitle : Prop :=
  ∀ (m : Moment) (n : Fin 8) (d : Time) (s₀ s : State), Awake m s₀ s → s.channels[n].reading = some d →
    due d s.clock = true →
    let c := s.channels[n]
    let l := s.languageOf n
    let ended : Channel := { c with layer := if c.layer = .showing then .settled else c.layer, reading := none }
    ∃ t, exec (.readingDeadlineExpiry m n) s₀ = .next t ∧
      ((c.queue = [] ∨ c.layer = .off ∨ c.layer = .gap ∨ c.layer = .settled) →
        t.channels = s.channels.set n ended ∧ t.link = s.link ∧ sameNotices s t ∧ sameRest s t) ∧
      (∀ i rest, c.queue = i :: rest → (c.layer = .showing ∨ c.layer = .blank) →
        (i.kind = .title → i.text = none → t.channels = s.channels.set n { ended with queue := { i with late := true } :: rest } ∧
          t.link = s.link ∧ sameNotices s t ∧ sameRest s t) ∧
        (∀ x, i.kind = .title → i.text = some x → (c.layer = .blank ∨ l.gap = 0) →
          let full := min l.cap (l.base + x.chars * l.perChar)
          t.channels[n].layer = .showing ∧ t.channels[n].current = some i ∧ t.channels[n].queue = rest ∧
            t.channels[n].shown = some ⟨s.clock, full⟩ ∧
            t.channels[n].reading = some (later s.clock (1000 * (if rest = [] then full else (full * l.catchUp + 99) / 100))) ∧
            (OnTop s n → Written n (.title i.label x.bytes x.lines) s t) ∧ (Beneath s n → NotWritten n s t)) ∧
        (∀ x, i.kind = .title → i.text = some x → c.layer = .showing → l.gap ≠ 0 →
          t.channels[n].layer = .gap ∧ t.channels[n].current = none ∧ t.channels[n].next = some i ∧
            t.channels[n].queue = rest ∧ t.channels[n].gap = some (later s.clock (1000 * l.gap)) ∧
            t.channels[n].reading = none ∧
            (OnTop s n → s.channels[n].content.isTitle = true → Written n .blank s t) ∧
            (OnTop s n → s.channels[n].content = .blank → NotWritten n s t) ∧ (Beneath s n → NotWritten n s t)) ∧
        (i.kind = .blank → rest = [] → t.channels[n].layer = .blank ∧ t.channels[n].current = none ∧
          t.channels[n].queue = [] ∧ t.channels[n].reading = none ∧
            (OnTop s n → s.channels[n].content.isTitle = true → Written n .blank s t) ∧
            (OnTop s n → s.channels[n].content = .blank → NotWritten n s t) ∧ (Beneath s n → NotWritten n s t))) ∧
      (∀ k : Fin 8, k ≠ n → t.channels[k] = s.channels[k]) ∧ sameOutside s t ∧ sameScore s t ∧ sameCues s t ∧
      t.placements = s.placements ∧ sameStore s t ∧ t.control = s.control ∧ sameRequests s t

/-- An expired gap deadline shows the next item, with its caption (R78, R83, R84, R89, R90, R91, R93, R94, R154). -/
def Obligations.GapExpiryShowsTheNextTitle : Prop :=
  ∀ (m : Moment) (n : Fin 8) (i : Item) (d : Time) (s₀ s : State), Awake m s₀ s → s.channels[n].layer = .gap →
    s.channels[n].next = some i → s.channels[n].gap = some d → due d s.clock = true →
    let l := s.languageOf n
    let full := min l.cap (l.base + ((i.text.map (·.chars)).getD 0) * l.perChar)
    ∃ t, exec (.gapDeadlineExpiry m n) s₀ = .next t ∧
      t.channels[n].layer = .showing ∧ t.channels[n].current = some i ∧ t.channels[n].next = none ∧
      t.channels[n].gap = none ∧ t.channels[n].queue = s.channels[n].queue ∧ t.channels[n].shown = some ⟨s.clock, full⟩ ∧
      t.channels[n].reading = some (later s.clock
        (1000 * (if s.channels[n].queue = [] then full else (full * l.catchUp + 99) / 100))) ∧
      t.channels[n].slipMax = max s.channels[n].slipMax ((s.clock - i.fired).toNat / 1000) ∧
      t.channels[n].present = s.channels[n].present ∧
      (OnTop s n → Written n (.title i.label ((i.text.map (·.bytes)).getD []) ((i.text.map (·.lines)).getD 1)) s t) ∧
      (Beneath s n → NotWritten n s t) ∧ (∀ k : Fin 8, k ≠ n → t.channels[k] = s.channels[k]) ∧
      sameOutside s t ∧ sameScore s t ∧ sameCues s t ∧ t.placements = s.placements ∧ sameStore s t ∧
      t.control = s.control ∧ sameRequests s t

/-- A folded text fits the channel's lines and keeps its length (R92). -/
def Obligations.FoldedTextFitsTheLines : Prop :=
  ∀ (lines : Nat) (bytes : List Byte), 1 ≤ lines →
    let out := folded lines bytes (lineBreaks bytes + 1)
    out.1.length = bytes.length ∧ lineBreaks out.1 + 1 = out.2 ∧ out.2 = min lines (lineBreaks bytes + 1)

/-- An accepted SHOW_MESSAGE stands in the slots of its channels (R91, R93, R94, R99, R100, R101, R102, R103, R111,
R154, R183, R184). -/
def Obligations.ShowMessageIsPlaced : Prop :=
  ∀ (m : Moment) (h : Head) (level mask : Byte) (l : Level) (duration : BitVec 16) (text : List Byte) (s₀ s : State), Ready m s₀ s →
    levelOf level = some l → (l = .alert → h.confirm = 0xDF) →
    (l ≠ .alert → s.control.show_ ≠ .dark ∧ mask ≠ 0) → text.length ≤ 160 →
    let set := placementSet l mask s
    ∃ t, exec (.showMessage m h level mask duration text) s₀ = .next t ∧
      Answered t (responseTo h (.showMessage level mask duration text) .ok
        ([level, set] ++ be 2 (min duration.toNat 600) ++ [if 600 < duration.toNat then 1 else 0])) ∧
      (∀ n : Fin 8, setHas set n = true ↔
        (s.config.channels[n].enabled = true ∧ (l = .alert ∨ setHas mask n = true))) ∧
      (set = 0 → t.placements = s.placements) ∧
      (∀ n : Fin 8, setHas set n = true → ∃ p, messageAt t n l = some p ∧ p.tag = h.tag ∧ p.bytes = text ∧
        p.placed = s.clock ∧ p.expiry = expiryOf s.clock duration.toNat ∧ p.channels = set) ∧
      (∀ (n : Fin 8) (l' : Level), (l' ≠ l ∨ setHas set n = false) →
        (messageAt t n l').map Placement.message = (messageAt s n l').map Placement.message) ∧
      (∀ n : Fin 8, setHas set n = true →
        (∀ l' : Level, l.number < l'.number → eligible s.control.show_ l' = true → messageAt s n l' = none) →
        let k := s.config.channels[n]
        t.channels[n].content = .message l text (lineBreaks text + 1) ∧
          ((k.muted = true ∨ withheld s n = true) → t.channels[n].number = s.channels[n].number) ∧
          (k.muted = false → withheld s n = false → t.channels[n].number = s.channels[n].number + 1 ∧
            (s.link.sendingD.isSome = true → t.link.slots[n] = some (captionOf k.address n (s.channels[n].number + 1) k.lines
              (.message l text (lineBreaks text + 1)))))) ∧
      (∀ n : Fin 8, setHas set n = false → t.channels[n] = s.channels[n]) ∧
      sameOutside s t ∧ sameScore s t ∧ sameCues s t ∧ sameStore s t ∧ t.control = s.control ∧
      t.counters = s.counters ∧ sameRequests s t

/-- CLEAR_MESSAGE empties the slots it names (R104). -/
def Obligations.ClearMessageEmptiesTheSlots : Prop :=
  ∀ (m : Moment) (h : Head) (level mask : Byte) (l : Level) (s₀ s : State), Ready m s₀ s → levelOf level = some l →
    (l = .alert → h.confirm = 0xDE) → (l ≠ .alert → mask ≠ 0) →
    let set := clearedSet l mask s
    ∃ t, exec (.clearMessage m h level mask) s₀ = .next t ∧
      Answered t (responseTo h (.clearMessage level mask) .ok [level, set]) ∧
      (∀ n : Fin 8, setHas set n = true ↔
        ((messageAt s n l).isSome = true ∧ (l = .alert ∨ setHas mask n = true))) ∧
      (∀ n : Fin 8, setHas set n = true → messageAt t n l = none) ∧
      (∀ (n : Fin 8) (l' : Level), (l' ≠ l ∨ setHas set n = false) →
        (messageAt t n l').map Placement.message = (messageAt s n l').map Placement.message) ∧
      sameOutside s t ∧ sameScore s t ∧ sameCues s t ∧ sameStore s t ∧ t.control = s.control ∧
      t.counters = s.counters ∧ sameRequests s t ∧ sameNotices s t

/-- An expired placement leaves the list with one notice (R105). -/
def Obligations.MessageExpiryRemovesThePlacement : Prop :=
  ∀ (m : Moment) (i : Nat) (p : Placement) (d : Time) (s₀ s : State), Awake m s₀ s → s.placements[i]? = some p →
    p.expiry = some d → due d s.clock = true →
    ∃ t, exec (.messageExpiry m i) s₀ = .next t ∧ t.placements = s.placements.eraseIdx i ∧
      sameOutside s t ∧ sameScore s t ∧ sameCues s t ∧ sameStore s t ∧ t.control = s.control ∧
      t.counters = s.counters ∧ sameRequests s t ∧
      (roomFor s .messageExpired →
        Admitted s t (.messageExpired p.level p.tag p.channels (millis p.placed) (millis d)))

/-- Every step keeps one message per channel and level (R98). -/
def Obligations.PlacementsStaySound : Prop :=
  ∀ s t : State, placementsSound s → step s = .next t → placementsSound t

/-- The duration decides the expiry deadline (R103). -/
def Obligations.DurationDecidesTheDeadline : Prop :=
  ∀ (now : Time) (d : Nat),
    (d = 0 → appliedDuration d = 0 ∧ expiryOf now d = none) ∧
    (1 ≤ d → d ≤ 600 → appliedDuration d = d ∧ expiryOf now d = some (now + BitVec.ofNat 48 (1000000 * d))) ∧
    (600 < d → appliedDuration d = 600 ∧ expiryOf now d = some (now + 600000000#48))

/-- READ_STORE queues its read and stays in handling (R114, R116, R163). -/
def Obligations.ReadStoreJoinsTheQueue : Prop :=
  ∀ (m : Moment) (h : Head) (address : BitVec 32) (length : Byte) (s₀ s : State), Ready m s₀ s →
    1 ≤ length.toNat → length.toNat ≤ 224 → address.toNat + length.toNat ≤ 2097152 → s.store.isLoading = false →
    s.store.runErasing address.toNat length.toNat = false →
    ∃ t, exec (.readStore m h address length) s₀ = .next t ∧
      t.store = { s.store with
        queue := s.store.queue ++ [.readStore address.toNat length.toNat],
        suspended := s.store.suspended || s.store.erasing } ∧
      t.management = { s.management with handling := some ⟨h.source, 0x30, h.tag⟩ } ∧ t.link = s.link ∧
      sameOutside s t ∧ sameScore s t ∧ sameCues s t ∧ sameScreens s t ∧ sameRest s t ∧
      ∀ a, t.store.cells.get? a = s.store.cells.get? a

/-- A served READ_STORE is answered with its bytes, 0xFF where ERASED, and its error flag (R112, R114, R115, R116,
R163). -/
def Obligations.ReadStoreServedAnswers : Prop :=
  ∀ (m : Moment) (g : Handling) (a n : Nat) (rest : List ReadJob) (s₀ s : State), Awake m s₀ s →
    s.management.handling = some g → s.store.queue = .readStore a n :: rest → s.store.blocksReads = false →
    s.management.restart = .none → s.management.fifo = [] → s.link.response = none →
    let st := s.store
    let failure := (unitsOf a n).find? st.unitFails
    ∃ t, exec (.readStoreServed m) s₀ = .next t ∧
      Answered t ⟨g.source, g.code, g.tag, .ok,
        be 1 n ++ (List.range n).map (fun i => st.returned (a + i)) ++
          (match failure with
           | none => [0, 0]
           | some u => [1, 1] ++ be 4 (16 * u))⟩ ∧
      t.management.handling = none ∧ t.store.queue = rest ∧ t.store.flight = s.store.flight ∧
      t.store.suspended = (s.store.suspended && !rest.isEmpty) ∧ t.store.protection = s.store.protection ∧
      (∀ x, t.store.cells.get? x = s.store.cells.get? x) ∧
      sameOutside s t ∧ sameScore s t ∧ sameCues s t ∧ sameScreens s t ∧ t.control = s.control ∧ t.tools = s.tools ∧
      samePortD s t ∧ t.management.fifo = [] ∧ t.management.valid = s.management.valid ∧
      ∀ x, (st.cells.get? x = none → st.returned x = 0xFF) ∧
        ∀ b, st.cells.get? x = some b →
          (st.unitFails (x / 16) = false → st.returned x = b) ∧
          ∀ pattern, st.unitError (x / 16) = some (.manyBits pattern) →
            st.returned x = b ^^^ pattern.extractLsb' (8 * (x % 16)) 8

/-- Verify, checksum, protection and load requests that pass their checks are accepted (R118, R123, R124, R125, R128).
-/
def Obligations.StoreOperationsAreAccepted : Prop :=
  ∀ (m : Moment) (h : Head) (s₀ s : State), Ready m s₀ s → s.store.flight = none →
    (∀ act : Byte, 1 ≤ act.toNat → act.toNat ≤ 8 →
      (∃ t, exec (.verifyAct m h act) s₀ = .next t ∧ AcceptedOnly h (.verifyAct act) (.verify act.toNat) s t ∧
        t.control = s.control) ∧
      (s.store.lock = false → ∃ t, exec (.protectAct m h act) s₀ = .next t ∧
        AcceptedOnly h (.protectAct act) (.protect act.toNat) s t ∧ t.control = s.control) ∧
      (s.store.lock = false → ∃ t, exec (.unprotectAct m h act) s₀ = .next t ∧
        AcceptedOnly h (.unprotectAct act) (.unprotect act.toNat) s t ∧ t.control = s.control) ∧
      (s.control.show_ = .dark → s.management.valid = true → s.store.queue = [] → ∃ t, exec (.loadAct m h act) s₀ = .next t ∧
        AcceptedOnly h (.loadAct act) (.load act.toNat) s t ∧ t.control = { s.control with loading := true })) ∧
    (∀ address length : BitVec 32, 1 ≤ length.toNat → address.toNat + length.toNat ≤ 2097152 →
      ∃ t, exec (.checksum m h address length) s₀ = .next t ∧
        AcceptedOnly h (.checksum address length) (.checksum address.toNat length.toNat) s t ∧ t.control = s.control)

/-- A program of erased, unprotected bytes in one page and an erase of an unprotected sector are accepted (R118, R119,
R120, R121). -/
def Obligations.ProgramAndEraseAreAccepted : Prop :=
  (∀ (m : Moment) (h : Head) (address : BitVec 32) (data : List Byte) (s₀ s : State), Ready m s₀ s → s.store.flight = none →
      runInPage address.toNat data.length = true →
      s.store.sectorProtected (address.toNat / 4096) = false →
      s.store.cells.runErased address.toNat data.length = true →
      ∃ t, exec (.programStore m h address data) s₀ = .next t ∧ AcceptedBeside s t ∧
        t.store.flight = some ⟨.program address.toNat data, h.tag⟩ ∧
        Answered t (responseTo h (.programStore address data) .accepted [])) ∧
    (∀ (m : Moment) (h : Head) (sector : BitVec 16) (s₀ s : State), Ready m s₀ s → s.store.flight = none → sector.toNat ≤ 511 →
      s.store.sectorProtected sector.toNat = false →
      ∃ t, exec (.eraseSector m h sector) s₀ = .next t ∧ AcceptedBeside s t ∧
        t.store.flight = some ⟨.erase sector.toNat, h.tag⟩ ∧
        Answered t (responseTo h (.eraseSector sector) .accepted []))

/-- A completed program gives exactly its bytes their values (R118, R119, R132, R183, R184). -/
def Obligations.ProgramGivesExactlyItsBytes : Prop :=
  ∀ (m : Moment) (a : Nat) (data : List Byte) (tag : Byte) (s₀ s : State), Awake m s₀ s →
    s.store.flight = some ⟨.program a data, tag⟩ →
    ∃ t, exec (.programComplete m) s₀ = .next t ∧ CompletedBeside s t ∧
      (∀ x, t.store.cells.get? x = if a ≤ x ∧ x < a + data.length then data[x - a]? else s.store.cells.get? x) ∧
      t.store.protection = s.store.protection ∧
      (s.management.restart = .none → roomFor s .opDone →
        Admitted s t (.opDone .program tag .ok (be 4 a ++ be 4 data.length))) ∧
      (s.management.restart ≠ .none → sameNotices s t)

/-- A completed erase makes exactly its sector ERASED (R114, R118, R120, R132). -/
def Obligations.EraseEmptiesExactlyItsSector : Prop :=
  ∀ (m : Moment) (sector : Nat) (tag : Byte) (s₀ s : State), Awake m s₀ s → s.store.flight = some ⟨.erase sector, tag⟩ →
    (s.store.suspended = false → ∃ t, exec (.eraseComplete m) s₀ = .next t ∧ CompletedBeside s t ∧
      (∀ x, t.store.cells.get? x = if x / 4096 = sector then none else s.store.cells.get? x) ∧
      t.store.protection = s.store.protection ∧
      (s.management.restart = .none → roomFor s .opDone → Admitted s t (.opDone .erase tag .ok (be 2 sector))) ∧
      (s.management.restart ≠ .none → sameNotices s t)) ∧
    (s.store.suspended = true → ∃ t, exec (.eraseComplete m) s₀ = .next t ∧ sameBlocks s t ∧ sameRest s t ∧ t.link = s.link)

/-- A verify compares the image's CRC-32, a checksum reports the run's, reading unit by unit behind the queued reads
(R114, R118, R123, R124, R188). -/
def Obligations.VerifyAndChecksumReport : Prop :=
  (∀ (m : Moment) (s₀ : State),
      let t := atMoment m s₀
      sameOutside (s₀.withClock m.clock) t ∧ sameScore s₀ t ∧ sameCues s₀ t ∧ sameScreens s₀ t ∧ samePortD s₀ t ∧
        sameRequests s₀ t ∧ t.control = s₀.control ∧ t.tools = s₀.tools ∧
        t.store = { s₀.store with
          faults := m.faults, trap := t.store.trap, region := t.store.region, reads := t.store.reads } ∧
        (s₀.store.work = none → s₀.management.halves = [] →
          t = (s₀.withClock m.clock).withStore { s₀.store with faults := m.faults }) ∧
        (s₀.store.queue ≠ [] → t.store.readsLeft = s₀.store.readsLeft) ∧
        (s₀.store.queue = [] →
          (∀ u ∈ s₀.store.readsLeft.take m.reads, ({ s₀.store with faults := m.faults } : Store).unitFails u = false) →
          t.store.readsLeft = s₀.store.readsLeft.drop m.reads) ∧
        (∀ u rest, s₀.store.readsLeft = u :: rest → ({ s₀.store with faults := m.faults } : Store).unitFails u = true →
          t.store.readsLeft = s₀.store.readsLeft)) ∧
    (∀ (m : Moment) (a n : Nat) (tag : Byte) (s₀ s : State), Awake m s₀ s → s.store.flight = some ⟨.checksum a n, tag⟩ →
      ∃ t, exec (.checksumComplete m) s₀ = .next t ∧
        (¬ readsFree s → sameBlocks s t ∧ sameRest s t ∧ t.link = s.link ∧ sameNotices s t) ∧
        (readsFree s → ReadBeside s t ∧
          (s.management.restart = .none → roomFor s .opDone → readsQuietly s →
            ((∀ u ∈ s.store.readsLeft, s.store.unitFails u = false) →
              Admitted s t (.opDone .checksum tag .ok
                (be 4 a ++ be 4 n ++ ([1] ++ be 4 (crc32 (s.store.cells.run a n)).toNat) ++ [0]))) ∧
            (∀ u, s.store.readsLeft.find? s.store.unitFails = some u →
              Admitted s t (.opDone .checksum tag .ecc (be 4 a ++ be 4 n ++ [0] ++ ([1] ++ be 4 (16 * u)))))))) ∧
    (∀ (m : Moment) (act : Nat) (tag : Byte) (s₀ s : State), Awake m s₀ s → s.store.flight = some ⟨.verify act, tag⟩ →
      ∃ t, exec (.verifyComplete m) s₀ = .next t ∧
        (¬ readsFree s → sameBlocks s t ∧ sameRest s t ∧ t.link = s.link ∧ sameNotices s t) ∧
        (readsFree s → ReadBeside s t ∧
          (s.management.restart = .none → roomFor s .opDone → readsQuietly s →
            (∀ u, s.store.readsLeft.find? s.store.unitFails = some u →
              Admitted s t (.opDone .verify tag .ecc (be 1 act ++ [0] ++ ([1] ++ be 4 (16 * u))))) ∧
            ((∀ u ∈ s.store.readsLeft, s.store.unitFails u = false) →
              ((dirEntry s.store.cells act).all (fun d => !d.wellFormed) = true →
                Admitted s t (.opDone .verify tag .noAct (be 1 act ++ [0, 0]))) ∧
              (∀ d, dirEntry s.store.cells act = some d → d.wellFormed = true →
                let c := crc32 (s.store.cells.run (d.first * 4096) d.length)
                Admitted s t (.opDone .verify tag (if c = d.crc then .match_ else .mismatch)
                  (be 1 act ++ ([1] ++ be 4 c.toNat ++ be 4 d.crc.toNat) ++ [0])))))))

/-- A completed protection update changes its act's flag alone (R118, R128). -/
def Obligations.ProtectionUpdateChangesOneFlag : Prop :=
  ∀ (m : Moment) (act : Nat) (tag : Byte) (on : Bool) (s₀ s : State), Awake m s₀ s → 1 ≤ act → act ≤ 8 →
    s.store.flight = some ⟨if on then .protect act else .unprotect act, tag⟩ →
    ∃ t, exec (.protectionUpdateComplete m) s₀ = .next t ∧ CompletedBeside s t ∧
      (∀ x, t.store.cells.get? x = s.store.cells.get? x) ∧
      (∀ other, 1 ≤ other → other ≤ 8 →
        t.store.isProtected other = if other = act then on else s.store.isProtected other) ∧
      (s.management.restart = .none → roomFor s .opDone →
        Admitted s t (.opDone (if on then .protect else .unprotect) tag .ok (be 1 act ++ [t.store.protection]))) ∧
      (s.management.restart ≠ .none → sameNotices s t)

/-- LOCK_SHOW sets the lock, and protection requests are then refused with LOCKED (R128, R130). -/
def Obligations.LockShowSetsTheLock : Prop :=
  ∀ (m : Moment) (h : Head) (s₀ s : State), Ready m s₀ s →
    (s.store.updating = false → ∃ t, exec (.lockShow m h) s₀ = .next t ∧
      t.store = { s.store with lock := true } ∧ Answered t (responseTo h .lockShow .ok []) ∧
      sameBesideStore s t ∧ sameRest s t ∧ sameNotices s t) ∧
    (∀ act : Byte, s.store.lock = true → 1 ≤ act.toNat → act.toNat ≤ 8 →
      (∃ t, exec (.protectAct m h act) s₀ = .next t ∧ AnsweredOnly s t (responseTo h (.protectAct act) .locked [])) ∧
      (∃ t, exec (.unprotectAct m h act) s₀ = .next t ∧ AnsweredOnly s t (responseTo h (.unprotectAct act) .locked [])))

/-- While the show lock is set no step changes the protection table (R130). -/
def Obligations.ShowLockFreezesTheProtectionTable : Prop :=
  ∀ s t : State, lockSound s → step s = .next t →
    lockSound t ∧ (s.store.lock = true → t.store.protection = s.store.protection)

/-- READ_ECC returns the address trap and leaves it, CLEAR_ECC empties it (presence byte: log 19) [R117]. -/
def Obligations.EccTrapIsReadAndCleared : Prop :=
  (∀ (m : Moment) (h : Head) (s₀ s : State), Ready m s₀ s →
      (∃ t, exec (.readEcc m h) s₀ = .next t ∧
        AnsweredOnly s t (responseTo h .readEcc .ok (match s.store.trap with
          | none => [0]
          | some x => [1] ++ be 4 x.address ++ be 1 x.reader.code))) ∧
      (∃ t, exec (.clearEcc m h) s₀ = .next t ∧ Answered t (responseTo h .clearEcc .ok []) ∧
        t.store = { s.store with trap := none } ∧ sameBesideStore s t ∧ sameRest s t ∧
        sameNotices s t)) ∧
    (∀ (reader : Reader) (unit : Nat) (s : State), s.store.unitFails unit = true →
      (s.store.trap = none → (readUnit reader s unit).store.trap = some ⟨16 * unit, reader⟩) ∧
      (s.store.trap ≠ none → (readUnit reader s unit).store.trap = s.store.trap)) ∧
    (∀ s : State, (restarted s).store.trap = none) ∧
    (∀ straps cut s, (powerGained straps cut s).store.trap = none)

/-- A load places the whole act, or ends with the first check that fails and places nothing (R114, R122, R126, R127,
R129, R135). -/
def Obligations.LoadPlacesTheActOrNothing : Prop :=
  (∀ (m : Moment) (act : Nat) (tag : Byte) (s₀ s : State), Awake m s₀ s → s.store.flight = some ⟨.load act, tag⟩ →
      ∃ t, exec (.loadComplete m) s₀ = .next t ∧ sameOutside s t ∧ (∀ a, t.store.cells.get? a = s.store.cells.get? a) ∧
        t.store.protection = s.store.protection ∧ sameRequests s t ∧
        (¬ readsFree s → sameBlocks s t ∧ sameRest s t ∧ t.link = s.link ∧ sameNotices s t) ∧
        (readsFree s → t.store.flight = none ∧
          let sound := ∀ u ∈ s.store.readsLeft, s.store.unitFails u = false
          let fails := fun (result : DoneResult) (data : List Byte) =>
            sameScore s t ∧ sameCues s t ∧ sameScreens s t ∧ t.control = { s.control with loading := false } ∧
              t.store.region = none ∧ samePortD s t ∧ t.tools = s.tools ∧
              (s.management.restart = .none → roomFor s .opDone → readsQuietly s →
                Admitted s t (.opDone .load tag result (be 1 act ++ data)))
          (∀ u, s.store.readsLeft.find? s.store.unitFails = some u → fails .ecc ([0, 0, 1] ++ be 4 (16 * u))) ∧
          (sound → loadEnd s.store.cells act = .noAct → fails .noAct [0, 0, 0]) ∧
          (sound → loadEnd s.store.cells act = .check → fails .check [0, 0, 0]) ∧
          (sound → loadEnd s.store.cells act = .corrupt none → fails .corrupt [0, 0, 0]) ∧
          (∀ i, sound → loadEnd s.store.cells act = .corrupt (some i) → fails .corrupt ([0, 1] ++ be 2 i ++ [0])) ∧
          (∀ region langs beat cues, sound → loadEnd s.store.cells act = .success region langs beat cues →
            t.table = { cues := cues, langs := langs, beat := some beat, map := buildMap s.config langs } ∧
              t.control = ⟨.preset, some act, false⟩ ∧ t.tracker = s.tracker.resetTo beat s.clock ∧
              t.firing = Firing.initial ∧ t.staging.entries = [] ∧ t.staging.awaited = [] ∧ t.store.region = some region ∧
              t.placements = s.placements ∧
              (∀ n : Fin 8, s.config.channels[n].enabled = true → t.channels[n].layer = .blank ∧ t.channels[n].queue = [] ∧
                t.channels[n].current = none ∧ t.channels[n].reading = s.channels[n].reading) ∧
              (s.management.restart = .none → roomFor s .opDone → roomFor s .showState →
                s.management.notices.length + 2 ≤ 32 → readsQuietly s →
                (s.management.notices ++ [
                  ⟨s.management.discarded,
                    .opDone .load tag .ok (be 1 act ++ [1] ++ be 2 cues.length ++ be 1 langs.length ++ [0, 0])⟩,
                  ⟨false, .showState .dark .preset .loadAct (some tag) (some act) ⟨0, (cues[0]?).map (·.label)⟩ none
                    (millis s.clock)⟩]) <+: t.management.notices)))) ∧
    (∀ (m : Moment) (act : Nat) (tag : Byte) (d : DirEntry) (s₀ : State), s₀.store.flight = some ⟨.load act, tag⟩ →
      s₀.store.queue = [] → dirEntry s₀.store.cells act = some d → d.wellFormed = true → 1 ≤ d.cues → d.cues ≤ 1024 →
      (atMoment m s₀).store.reads ≠ 0 → (atMoment m s₀).store.region = some ⟨d.first, d.count⟩) ∧
    (∀ (cells : Cells) (act : Nat),
      (dirEntry cells act = none → loadEnd cells act = .noAct) ∧
      (∀ d, dirEntry cells act = some d →
        let image := cells.run (d.first * 4096) d.length
        ((d.wellFormed = false ∨ d.cues = 0 ∨ 1024 < d.cues) → loadEnd cells act = .corrupt none) ∧
        (d.wellFormed = true → 1 ≤ d.cues → d.cues ≤ 1024 →
          (crc32 image ≠ d.crc → loadEnd cells act = .check) ∧
          (crc32 image = d.crc → headerOf image d.cues = none → loadEnd cells act = .corrupt none) ∧
          (∀ h, crc32 image = d.crc → headerOf image d.cues = some h →
            (∀ i, recordsFrom image (d.first * 4096) h h.cues [] = .failing i →
              loadEnd cells act = .corrupt (some i) ∧ i < d.cues) ∧
            (∀ cues, recordsFrom image (d.first * 4096) h h.cues [] = .good cues →
              loadEnd cells act = .success ⟨d.first, d.count⟩ h.langs h.beat cues ∧ cues.length = d.cues ∧
                1 ≤ h.langs.length ∧ h.langs.length ≤ 6 ∧ 150000 ≤ h.beat ∧ h.beat ≤ 3000000 ∧
                (cues.map (·.label)).Nodup ∧ cues.Pairwise (fun x y => x.mark ≤ y.mark) ∧
                ∀ c ∈ cues, 1 ≤ c.label.number.toNat ∧ c.label.number.toNat ≤ 9999 ∧
                  (c.label.suffix = 0 ∨ (0x41 ≤ c.label.suffix.toNat ∧ c.label.suffix.toNat ≤ 0x5A)) ∧
                  c.mark ≤ 16777215 ∧ c.lead ≤ 5000 ∧ c.slots.length = h.langs.length ∧
                  (∀ k, c.trigger = .count k → 1 ≤ k ∧ k ≤ 64) ∧ (∀ k, c.trigger = .follow k → k ≤ 60000))))))

/-- A staging read's result is delivered to the channels that await it, then enters the set where it is wanted (R41,
R42, R46, R82, R86, R87). -/
def Obligations.StagingReadEndKeepsTheResult : Prop :=
  ∀ (m : Moment) (r : StagingRead) (rest : List ReadJob) (s₀ s : State), Awake m s₀ s → s.staging.reading = some r →
    s.store.queue = .staging :: rest → s.store.blocksReads = false → s.management.restart = .none →
    let st := s.store
    let failure := (textUnits s.store r.address).find? st.unitFails
    let result : Staged := if failure = none then .ready (textAt s.store r.address) else .failed
    let awaited := s.staging.awaited.find? (fun a => a.key = r.key)
    let taken := fun c : Channel => { c with queue := c.queue.map (fun i => if i.awaits r.key then i.delivered result else i) }
    ∃ t, exec (.stagingReadEnd m) s₀ = .next t ∧ sameOutside s t ∧ sameScore s t ∧ t.placements = s.placements ∧
      t.firing = s.firing ∧ t.control = s.control ∧ sameRequests s t ∧ (∀ a, t.store.cells.get? a = s.store.cells.get? a) ∧
      t.staging.awaited = s.staging.awaited.filter (fun a => a.key ≠ r.key) ∧
      (awaited = none → t.channels = s.channels) ∧
      (∀ a, awaited = some a → ∀ n : Fin 8,
        let c := s.channels[n]
        (setHas a.channels n = false → t.channels[n] = c) ∧
        (setHas a.channels n = true →
          (((c.queue.head?).any (·.awaits r.key) = false ∨ (c.layer ≠ .blank ∧ c.layer ≠ .settled)) → t.channels[n] = taken c) ∧
          (∀ i later, c.queue = i :: later → i.awaits r.key = true → c.layer = .blank → isAhead c.reading s.clock = false →
            (failure = none → t.channels[n].layer = .showing ∧
              t.channels[n].current = some { i with text := some (textAt s.store r.address) } ∧
              t.channels[n].queue = (taken c).queue.tail) ∧
            (failure ≠ none → later = [] → t.channels[n].layer = .blank ∧ t.channels[n].current = none ∧
              t.channels[n].queue = [])))) ∧
      (wantsEntry r s = false → t.staging.entries = s.staging.entries) ∧
      (wantsEntry r s = true → t.staging.entries = s.staging.entries ++ [⟨r.key, result⟩]) ∧
      (∀ u, failure = some u → (wantsEntry r s = true ∨ awaited ≠ none) → roomFor s .storeError →
        (awaited = none ∨ s.config.engine.notices[NoticeKind.titleSlip.index] = false) →
        Admitted s t (.storeError r.key.cue (s.table.labelAt r.key.cue) r.key.lang (16 * u)))

/-- Every step keeps the store's bytes in their one form (R112, R119). -/
def Obligations.CellsStayCanonical : Prop :=
  ∀ s t : State, cellsSound s → step s = .next t → cellsSound t

/-- HOLD in RUN pauses the pointer cue and nothing else (R71, R134, R137). -/
def Obligations.HoldPausesTheFiringUnit : Prop :=
  ∀ (m : Moment) (h : Head) (s₀ s : State), Ready m s₀ s → s.control.show_ = .run →
    ∃ t, exec (.hold m h) s₀ = .next t ∧ Answered t (responseTo h .hold .ok []) ∧
      t.control = { s.control with show_ := .hold } ∧ t.firing.pointer = s.firing.pointer ∧ t.firing.last = s.firing.last ∧
      t.firing.previous = s.firing.previous ∧ t.firing.watch = none ∧
      (∀ d, s.firing.trigger = .mark d → t.firing.trigger = .none) ∧
      (∀ k, s.firing.trigger = .count k → t.firing.trigger = .count k) ∧
      (∀ d kept, s.firing.trigger = .follow d kept → due d s.clock = false →
        t.firing.trigger = .paused (d - s.clock).toNat) ∧
      sameOutside s t ∧ sameScore s t ∧ t.staging = s.staging ∧ sameScreens s t ∧ sameStore s t ∧ samePortD s t ∧
      sameRequests s t ∧ t.tools = s.tools ∧ t.counters = s.counters ∧
      (roomFor s .showState → Admitted s t (.showState .run .hold .hold (some h.tag) s.control.act (pointerPlace s)
        (lastPlace s) (millis s.clock)))

/-- START and RESUME enter RUN and arm the pointer cue by its kind (R51, R52, R55, R56, R57, R72, R134, R136, R138).
-/
def Obligations.StartAndResumeEnterRun : Prop :=
  (∀ (m : Moment) (h : Head) (force : Byte) (s₀ s : State), Ready m s₀ s → s.control.show_ = .preset →
      s.tools.running = .none →
      (force = 1 ∨ (∀ n : Fin 8, s.config.channels[n].enabled = true → s.config.channels[n].muted = false →
        s.channels[n].present ≠ .missing)) →
      ∃ t, exec (.start m h force) s₀ = .next t ∧ Answered t (responseTo h (.start force) .ok []) ∧ EntersRun s t ∧
        (nothingDue (setShow .run s) → t.firing = armed (setShow .run s)) ∧
        (roomFor s .showState → Admitted s t (.showState .preset .run .start (some h.tag) s.control.act (pointerPlace s)
          (lastPlace s) (millis s.clock)))) ∧
    (∀ (m : Moment) (h : Head) (s₀ s : State), Ready m s₀ s → s.control.show_ = .hold →
      ∃ t, exec (.resume m h) s₀ = .next t ∧ Answered t (responseTo h .resume .ok []) ∧ EntersRun s t ∧
        (nothingDue (setShow .run s) → t.firing = armed (setShow .run s)) ∧
        (roomFor s .showState → Admitted s t (.showState .hold .run .resume (some h.tag) s.control.act (pointerPlace s)
          (lastPlace s) (millis s.clock)))) ∧
    (∀ s : State,
      let f := s.firing
      let e := s.config.engine
      let watched := fun lead : Nat =>
        if e.watchOn then (s.table.markCueFrom (f.pointer + 1) e.watchWindow).map (fun w =>
          Watch.mk w (markDeadline s (((s.table.cues[w]?).map (·.mark)).getD 0) lead)) else none
      (s.table.cues.length ≤ f.pointer → armed s = { f with trigger := .none, watch := none }) ∧
      (∀ c, s.table.cues[f.pointer]? = some c →
        (c.trigger = .mark → (armed s).watch = none ∧
          (∀ x, s.tracker.arrival e.horizon c.mark = .reachedAt x →
            (armed s).trigger = .mark (x - BitVec.ofNat 48 (1000 * c.lead))) ∧
          (s.tracker.arrival e.horizon c.mark = .already → (armed s).trigger = .mark s.clock) ∧
          (s.tracker.arrival e.horizon c.mark = .noTime → (armed s).trigger = .none)) ∧
        (∀ k, c.trigger = .count k → (armed s).watch = none ∧
          (∀ n, f.trigger = .count n → (armed s).trigger = .count n) ∧
          ((∀ n, f.trigger ≠ .count n) → (armed s).trigger = .count k)) ∧
        (∀ k, c.trigger = .follow k →
          (f.previous = none → (armed s).trigger = .none ∧ (armed s).watch = watched c.lead) ∧
          (∀ x, f.previous = some x → (armed s).watch = none ∧
            (∀ left, f.trigger = .paused left → (armed s).trigger = .follow (s.clock + BitVec.ofNat 48 left) true) ∧
            (∀ d, f.trigger = .follow d true → (armed s).trigger = .follow d true) ∧
            ((∀ left, f.trigger ≠ .paused left) → (∀ d, f.trigger ≠ .follow d true) →
              (armed s).trigger = .follow (x + BitVec.ofNat 48 (1000 * k)) false))) ∧
        (c.trigger = .manual → (armed s).trigger = .none ∧ (armed s).watch = watched c.lead) ∧
        (armed s).pointer = f.pointer ∧ (armed s).last = f.last ∧ (armed s).previous = f.previous))

/-- STOP returns to PRESET with the blocks at their STOP values (R5, R49, R95, R139). -/
def Obligations.StopReturnsToPreset : Prop :=
  ∀ (m : Moment) (h : Head) (s₀ s : State), Ready m s₀ s → (s.control.show_ = .run ∨ s.control.show_ = .hold) →
    ∃ t, exec (.stop m h) s₀ = .next t ∧ Answered t (responseTo h .stop .ok []) ∧
      t.control = { s.control with show_ := .preset } ∧ t.tracker.follow = .idle ∧ t.tracker.anySeq = true ∧
      t.tracker.latch = s.tracker.latch ∧ t.tracker.silence = none ∧ t.tracker.horizon = none ∧
      (∀ b, s.table.beat = some b → t.tracker.beat = b) ∧ t.firing = ⟨0, none, none, .none, none⟩ ∧
      t.staging.entries = [] ∧ t.staging.awaited = [] ∧
      (∀ n : Fin 8, s.config.channels[n].enabled = true → ClearedTo .blank s.channels[n] t.channels[n]) ∧
      (∀ n : Fin 8, s.config.channels[n].enabled = false → t.channels[n] = s.channels[n]) ∧
      sameOutside s t ∧ t.table = s.table ∧ t.placements = s.placements ∧ sameRequests s t ∧ t.counters = s.counters ∧
      t.store.region = s.store.region ∧ t.store.lock = s.store.lock ∧ t.store.protection = s.store.protection ∧
      t.store.flight = s.store.flight ∧ ∀ a, t.store.cells.get? a = s.store.cells.get? a

/-- UNLOAD returns to DARK with the blocks at their UNLOAD values (R95, R108, R140). -/
def Obligations.UnloadReturnsToDark : Prop :=
  ∀ (m : Moment) (h : Head) (s₀ s : State), Ready m s₀ s → h.confirm = 0xEA → s.control.show_ ≠ .dark →
    ∃ t, exec (.unload m h) s₀ = .next t ∧ Answered t (responseTo h .unload .ok []) ∧
      t.control.show_ = .dark ∧ t.control.act = none ∧ t.tracker.follow = .idle ∧ t.tracker.beat = s.tracker.beat ∧
      t.tracker.latch = s.tracker.latch ∧ t.tracker.anySeq = true ∧ t.table = CueTable.empty ∧
      t.firing = ⟨0, none, none, .none, none⟩ ∧ t.staging.entries = [] ∧ t.staging.awaited = [] ∧
      t.placements = s.placements.filter (fun p => p.level = .alert) ∧
      (∀ n : Fin 8, s.config.channels[n].enabled = true → ClearedTo .off s.channels[n] t.channels[n]) ∧
      (∀ n : Fin 8, s.config.channels[n].enabled = false → t.channels[n] = s.channels[n]) ∧
      sameOutside s t ∧ sameRequests s t ∧ t.counters = s.counters ∧ t.store.region = none ∧
      t.store.lock = s.store.lock ∧ t.store.protection = s.store.protection ∧ t.store.flight = s.store.flight ∧
      ∀ a, t.store.cells.get? a = s.store.cells.get? a

/-- RESTART is answered OK, and takes effect once sent with nothing left to carry through (store steps at the answer:
model, log 10) [R132, R141, R160, R165]. -/
def Obligations.RestartIsAnsweredThenTakesEffect : Prop :=
  (∀ (m : Moment) (h : Head) (s₀ s : State), Ready m s₀ s →
      (h.confirm = 0x80 → ∃ t, exec (.restart m h) s₀ = .next t ∧ Answered t (responseTo h .restart .ok []) ∧
        t.management.restart ≠ .none ∧ t.store.queue = [] ∧ t.store.suspended = false ∧
        (∀ f, s.store.flight = some f → t.store.flight = if f.op.carried then some f else none) ∧
        (s.store.flight = none → t.store.flight = none) ∧ t.store.protection = s.store.protection ∧
        (∀ a, t.store.cells.get? a = s.store.cells.get? a) ∧ t.control = { s.control with loading := false } ∧
        sameOutside s t ∧ sameScore s t ∧ t.firing = s.firing ∧ sameScreens s t ∧ samePortD s t ∧ sameRequests s t ∧
        t.tools = s.tools ∧ t.counters = s.counters ∧ sameNotices s t) ∧
      (h.confirm ≠ 0x80 → ∃ t, exec (.restart m h) s₀ = .next t ∧ AnsweredOnly s t (responseTo h .restart .confirm []) ∧ t.management.restart = .none)) ∧
    (∀ s : State, s.powered = true → s.management.restart = .sent → s.store.flight = none →
      ∃ t, exec .restartTakesEffect s = .next t ∧ t.clock = 0 ∧ t.control = ⟨.dark, none, false⟩ ∧ t.config = s.config ∧
        t.management.valid = s.management.valid ∧ t.management.fifo = [] ∧ t.management.handling = none ∧
        t.management.restart = .none ∧ t.link.address = s.link.address ∧ t.link.downFifo = [] ∧ t.link.upFifo = [] ∧
        t.link.tool = none ∧ t.link.response = none ∧ t.link.coalesced = 0 ∧ t.tracker = Tracker.initial ∧
        t.table = CueTable.empty ∧ t.staging = Staging.initial ∧ t.firing = Firing.initial ∧ t.placements = [] ∧
        t.counters = Vector.replicate 14 0 ∧ t.tools = Tools.initial ∧ t.store.queue = [] ∧ t.store.region = none ∧
        t.store.lock = false ∧ t.store.trap = none ∧ t.store.protection = s.store.protection ∧
        (∀ a, t.store.cells.get? a = s.store.cells.get? a) ∧
        (∀ n : Fin 8, t.channels[n] = { Channel.initial with
          number := if s.config.channels[n].enabled then 1 else 0 }))

/-- READ_STATUS clears the latch and slip maxima, READ_COUNTERS the counters, and nothing else (R26, R89, R169, R170).
-/
def Obligations.StatusAndCountersAreReadAndCleared : Prop :=
  ∀ (m : Moment) (h : Head) (s₀ s : State), Ready m s₀ s →
    (∃ t, exec (.readStatus m h) s₀ = .next t ∧
      Answered t (responseTo h .readStatus .ok (statusData (takeInHand ⟨h.source, 0x02, h.tag⟩ s))) ∧
      t.tracker = { s.tracker with latch := ⟨false, false, false, false⟩ } ∧
      (∀ n : Fin 8, t.channels[n] = { s.channels[n] with slipMax := 0 }) ∧ sameOutside s t ∧ t.table = s.table ∧
      sameCues s t ∧ t.placements = s.placements ∧ sameStore s t ∧ samePortD s t ∧ sameRequests s t ∧ sameRest s t ∧
      sameNotices s t) ∧
    (∃ t, exec (.readCounters m h) s₀ = .next t ∧ Answered t (responseTo h .readCounters .ok s.counters.toList) ∧
      t.counters = Vector.replicate 14 0 ∧ sameBlocks s t ∧ t.control = s.control ∧ t.tools = s.tools ∧ sameNotices s t)

/-- SET_CONFIG applies its whole list, the blocks react, or it refuses it whole (unmuting in the list that enables:
model, log 31) [R51, R73, R74, R93, R110, R164, R166, R167, R180]. -/
def Obligations.SetConfigAppliesTheWholeList : Prop :=
  ∀ (m : Moment) (h : Head) (pairs : List ConfigPair) (s₀ s : State), Ready m s₀ s →
    requestFits h (.setConfig pairs) = true →
    (pairs.all pairInRange = true →
      (pairs.any pairStructural = true → s.control.show_ = .dark ∧ s.store.isLoading = false) →
      ∃ t, exec (.setConfig m h pairs) s₀ = .next t ∧ Answered t (responseTo h (.setConfig pairs) .ok []) ∧
        (∀ item : ConfigItem, item ∈ allItems →
          t.config.value item =
            match pairs.reverse.find? (fun p => itemOf p.item = some item) with
            | some p => ofBe p.value
            | none => s.config.value item) ∧
        t.management.valid = (s.management.valid && !pairs.any pairStructural) ∧ t.tracker = s.tracker ∧
        t.table = s.table ∧ t.control = s.control ∧ t.store.protection = s.store.protection ∧
        t.management.fifo = s.management.fifo ∧ (∀ a, t.store.cells.get? a = s.store.cells.get? a) ∧
        (s.control.show_ ≠ .run ∨ watchItemsChanged s.config.engine t.config.engine = false → ∀ n : Fin 8,
          let a := s.config.channels[n]
          let b := t.config.channels[n]
          t.channels[n].present = (if a.address = b.address then s.channels[n].present else .unknown) ∧
          (a.enabled = true → b.enabled = false → t.channels[n].layer = .off ∧ t.channels[n].current = none ∧
            t.channels[n].next = none ∧ t.channels[n].queue = [] ∧ t.channels[n].content = .dark ∧
            t.channels[n].number = s.channels[n].number ∧ messageAt t n .alert = none ∧
            (∀ r, s.tools.running = .test r → r.channel = n → t.tools.running = .none)) ∧
          ((a.enabled = false ∨ b.enabled = true) → t.channels[n].layer = s.channels[n].layer ∧
            t.channels[n].current = s.channels[n].current ∧ t.channels[n].queue = s.channels[n].queue ∧
            t.channels[n].content = s.channels[n].content) ∧
          (a.muted = true → b.muted = false → b.enabled = true → (∀ r, s.tools.running = .test r → r.channel ≠ n) →
            t.channels[n].number = s.channels[n].number + 1 ∧
            (s.link.sendingD.isSome = true → t.link.slots[n] =
              some (captionOf b.address n (s.channels[n].number + 1) b.lines s.channels[n].content))) ∧
          ((a.muted = false ∨ b.muted = true ∨ b.enabled = false ∨ (∃ r, s.tools.running = .test r ∧ r.channel = n)) →
            t.channels[n].number = s.channels[n].number))) ∧
    (∀ i p, pairs[i]? = some p → pairInRange p = false → (pairs.take i).all pairInRange = true →
      ∃ t, exec (.setConfig m h pairs) s₀ = .next t ∧ AnsweredOnly s t (responseTo h (.setConfig pairs) .range (be 1 (i + 1)))) ∧
    (pairs.all pairInRange = true → pairs.any pairStructural = true → s.control.show_ ≠ .dark →
      ∃ t, exec (.setConfig m h pairs) s₀ = .next t ∧
        AnsweredOnly s t (responseTo h (.setConfig pairs) .state (be 1 s.control.show_.code))) ∧
    (pairs.all pairInRange = true → pairs.any pairStructural = true → s.control.show_ = .dark → s.store.isLoading = true →
      ∃ t, exec (.setConfig m h pairs) s₀ = .next t ∧ AnsweredOnly s t (responseTo h (.setConfig pairs) .busy [0]))

/-- COMMIT_CONFIG sets VALID exactly when the three conditions hold; READ_CONFIG changes nothing (R168). -/
def Obligations.CommitSetsValid : Prop :=
  ∀ (m : Moment) (h : Head) (s₀ s : State), Ready m s₀ s →
    let consistent :=
      (∃ n : Fin 8, s.config.channels[n].enabled = true) ∧
      (∀ n : Fin 8, s.config.channels[n].enabled = true → s.config.languages[s.config.channels[n].language].code ≠ none) ∧
      (∀ a b : Fin 8, a ≠ b → s.config.channels[a].enabled = true → s.config.channels[b].enabled = true →
        s.config.channels[a].address ≠ s.config.channels[b].address)
    (consistent → ∃ t, exec (.commitConfig m h) s₀ = .next t ∧ Answered t (responseTo h .commitConfig .ok []) ∧
      t.management.valid = true ∧ t.management.fifo = s.management.fifo ∧ sameOutside s t ∧ sameScore s t ∧ sameCues s t ∧
      sameScreens s t ∧ sameStore s t ∧ samePortD s t ∧ sameRest s t ∧ sameNotices s t) ∧
    (¬ consistent → ∃ t data, exec (.commitConfig m h) s₀ = .next t ∧
      AnsweredOnly s t (responseTo h .commitConfig .range data)) ∧
    (∃ t, exec (.readConfig m h) s₀ = .next t ∧
      Answered t (responseTo h .readConfig .ok
        ((allItems.map (itemBytes s.config)).flatten ++ [if s.management.valid then 1 else 0])) ∧
      sameBlocks s t ∧ sameRest s t ∧ sameNotices s t)

/-- A REQ frame is handled at once, joins the FIFO or is dropped; an undecodable one is answered INVALID (R151, R162,
R163, R164). -/
def Obligations.RequestsAreTakenQueuedOrDropped : Prop :=
  (∀ (m : Moment) (source seq : Byte) (payload : List Byte) (s₀ s : State), Awake m s₀ s → payloadFits payload = true →
      (Ready m s₀ s → ∃ t, exec (.req m s.link.address source seq payload) s₀ = .next t ∧
        t = offerHalves (handlePayload source payload s)) ∧
      (s.management.handling ≠ none → s.management.fifo.length < 4 →
        ∃ t, exec (.req m s.link.address source seq payload) s₀ = .next t ∧
          t.management = { s.management with fifo := s.management.fifo ++ [⟨source, payload⟩] } ∧ t.link = s.link ∧
          sameOutside s t ∧ sameScore s t ∧ sameCues s t ∧ sameScreens s t ∧ sameStore s t ∧ sameRest s t) ∧
      (s.management.handling ≠ none → 4 ≤ s.management.fifo.length →
        ∃ t, exec (.req m s.link.address source seq payload) s₀ = .next t ∧ countedOnly .reqDrop s t)) ∧
    (∀ (m : Moment) (source : Byte) (payload : List Byte) (s₀ s : State), Ready m s₀ s → payloadFits payload = true →
      decodeRequest payload = none →
      ∃ t, exec (.invalidRequest m source payload) s₀ = .next t ∧
        Answered t { dest := source, code := payload.getD 0 0, tag := payload.getD 1 0, result := .invalid, data := [] } ∧
        sameBlocks s t ∧ sameRest s t ∧ sameNotices s t)

/-- At the end of a transmission the arbiter sends the frame its turn picks, its own ones with the engine's header
(also after the response of a RESTART: model, log 40) [R152, R153, R155, R156, R157, R178]. -/
def Obligations.PortsSendTheArbitersChoice : Prop :=
  (∀ (m : Moment) (f : Frame) (x : Option ToolFrame) (n : Fin 8) (c : Caption) (s₀ s : State), Awake m s₀ s → s.link.sendingD = some ⟨f, x⟩ →
      (s.link.dNext = .captions ∨ (s.link.dNext = .downFifo ∧ s.link.downFifo = []) ∨
        (s.link.dNext = .tools ∧ s.link.tool = none ∧ s.link.downFifo = [])) → pickCaption s.link = some (n, c) →
      ∃ t, exec (.dTransmissionComplete m) s₀ = .next t ∧
        t.link = { s.link with
          slots := s.link.slots.set n none, seqD := s.link.seqD + 1, dNext := .tools, dLast := n,
          sendingD := some ⟨⟨c.dest, s.link.address, 0x30, s.link.seqD, c.payload⟩, none⟩ } ∧
        sameOutside s t ∧ sameScore s t ∧ sameCues s t ∧ sameScreens s t ∧ sameStore s t ∧ sameRequests s t ∧
        restAfter x s t) ∧
    (∀ (m : Moment) (f : Frame) (x : Option ToolFrame) (s₀ s : State), Awake m s₀ s → s.link.sendingD = some ⟨f, x⟩ →
      (∀ n : Fin 8, s.link.slots[n] = none) → s.link.tool = none → s.link.downFifo = [] →
      ∃ t, exec (.dTransmissionComplete m) s₀ = .next t ∧ t.link = { s.link with sendingD := none } ∧
        sameOutside s t ∧ sameScore s t ∧ sameCues s t ∧ sameScreens s t ∧ sameStore s t ∧ sameRequests s t ∧
        restAfter x s t) ∧
    (∀ (l : Link) (n : Fin 8) (c : Caption), pickCaption l = some (n, c) →
      l.slots[n] = some c ∧ ((∃ k : Fin 8, ∃ x, l.slots[k] = some x ∧ x.alert = true) → c.alert = true)) ∧
    (∀ (m : Moment) (f : Frame) (r : Response) (s₀ s : State), Awake m s₀ s → s.link.sendingU = some f →
      s.link.response = some r → s.management.fifo = [] →
      ∃ t, exec (.uTransmissionComplete m) s₀ = .next t ∧
        t.link = { s.link with
          response := none, seqU := s.link.seqU + 1,
          sendingU := some ⟨r.dest, s.link.address, 0x21, s.link.seqU, r.payload⟩ } ∧
        sameOutside s t ∧ sameScore s t ∧ sameCues s t ∧ sameScreens s t ∧ sameStore s t ∧ sameRequests s t ∧
        sameRest s t ∧ sameNotices s t) ∧
    (∀ (m : Moment) (f : Frame) (q : QueuedNotice) (rest : List QueuedNotice) (s₀ s : State), Awake m s₀ s →
      s.link.sendingU = some f → s.link.response = none → s.management.fifo = [] → s.management.notices = q :: rest →
      (s.link.uNext = .notices ∨ s.link.upFifo = []) →
      ∃ t, exec (.uTransmissionComplete m) s₀ = .next t ∧ t.management.notices = rest ∧
        t.link = { s.link with
          seqU := s.link.seqU + 1, uNext := .upFifo,
          sendingU := some ⟨0, s.link.address, 0x22, s.link.seqU, q.payload⟩ } ∧ sameBlocks s t ∧ sameRest s t) ∧
    (∀ (l : Link) (n : Fin 8) (c : Caption), pickCaption l = some (n, c) → ∀ (k : Fin 8) (x : Caption), l.slots[k] = some x →
      x.alert = c.alert → (n - l.dLast - 1).val ≤ (k - l.dLast - 1).val) ∧
    (∀ (m : Moment) (f : Frame) (x : Option ToolFrame) (s₀ s : State), Awake m s₀ s → s.link.sendingD = some ⟨f, x⟩ →
      (s.link.dNext = .tools ∨ ((∀ n : Fin 8, s.link.slots[n] = none) ∧
        (s.link.dNext = .captions ∨ (s.link.dNext = .downFifo ∧ s.link.downFifo = [])))) →
      (∀ id live, s.link.tool = some (.probe id live) →
        ∃ t, exec (.dTransmissionComplete m) s₀ = .next t ∧
          t.link = { s.link with
            tool := s.link.toolWaiting, toolWaiting := none, seqD := s.link.seqD + 1, dNext := .downFifo,
            sendingD := some ⟨⟨255, s.link.address, 0x31, s.link.seqD, [id, 0]⟩, some (.probe id live)⟩ } ∧
          sameOutside s t ∧ sameScore s t ∧ sameCues s t ∧ sameScreens s t ∧ sameStore s t ∧ sameRequests s t ∧
          restAfter x s t) ∧
      (∀ (n : Fin 8) k len live, s.link.tool = some (.test n k len live) →
        ∃ t, exec (.dTransmissionComplete m) s₀ = .next t ∧
          t.link = { s.link with
            tool := s.link.toolWaiting, toolWaiting := none, seqD := s.link.seqD + 1, dNext := .downFifo,
            sendingD := some ⟨⟨s.config.channels[n].address, s.link.address, 0x33, s.link.seqD, be 2 k ++ testBytes k len⟩,
              some (.test n k len live)⟩ } ∧
          (live = false → restAfter x s t) ∧
          (∀ r, live = true → (toolSent x s).tools.running = .test r →
            t.tools = { s.tools with running := .test { r with sent := r.sent + 1 } }) ∧
          sameOutside s t ∧ sameScore s t ∧ sameCues s t ∧ sameScreens s t ∧ sameStore s t ∧ sameRequests s t)) ∧
    (∀ (m : Moment) (f g : Frame) (x : Option ToolFrame) (rest : List Frame) (s₀ s : State), Awake m s₀ s →
      s.link.sendingD = some ⟨f, x⟩ →
      s.link.downFifo = g :: rest → (s.link.dNext = .downFifo ∨ (s.link.tool = none ∧
        (s.link.dNext = .tools ∨ (s.link.dNext = .captions ∧ ∀ n : Fin 8, s.link.slots[n] = none)))) →
      ∃ t, exec (.dTransmissionComplete m) s₀ = .next t ∧
        t.link = { s.link with downFifo := rest, sendingD := some ⟨g, none⟩, dNext := .captions } ∧
        sameOutside s t ∧ sameScore s t ∧ sameCues s t ∧ sameScreens s t ∧ sameStore s t ∧ sameRequests s t ∧
        restAfter x s t) ∧
    (∀ (m : Moment) (f g : Frame) (rest : List Frame) (s₀ s : State), Awake m s₀ s → s.link.sendingU = some f →
      s.link.response = none → s.management.fifo = [] → s.link.upFifo = g :: rest →
      (s.link.uNext = .upFifo ∨ s.management.notices = []) →
      ∃ t, exec (.uTransmissionComplete m) s₀ = .next t ∧
        t.link = { s.link with upFifo := rest, sendingU := some g, uNext := .notices } ∧ sameBlocks s t ∧ sameRest s t ∧
        sameNotices s t)

/-- IDENTIFY answers the part's codes and changes nothing (R172). -/
def Obligations.IdentifyAnswers : Prop :=
  ∀ (m : Moment) (h : Head) (s₀ s : State), Ready m s₀ s →
    ∃ t, exec (.identify m h) s₀ = .next t ∧
      AnsweredOnly s t (responseTo h .identify .ok ([0x57, 0x54, 0x5C, 0x26] ++ [Config.revision] ++
        be 8 Config.uniqueNumber.toNat ++ be 4 2097152 ++ [s.link.address]))

/-- A census offers its PROBE, lists answers, and judges the enabled channels (R153, R173, R174, R175, R176, R177,
R186). -/
def Obligations.CensusListsAnswersAndJudges : Prop :=
  (∀ (m : Moment) (h : Head) (s₀ s : State), Ready m s₀ s → (s.control.show_ = .dark ∨ s.control.show_ = .preset) →
      s.tools.running = .none →
      ∃ t, exec (.census m h) s₀ = .next t ∧ Answered t (responseTo h .census .accepted []) ∧
        t.tools = ⟨.census h.tag (later s.clock (1000 * s.config.engine.censusWindow)), s.tools.id + 1, [], false, .none⟩ ∧
        sameOutside s t ∧ sameScore s t ∧ sameCues s t ∧ sameScreens s t ∧ sameStore s t ∧ sameRequests s t ∧
        t.control = s.control ∧ t.counters = s.counters ∧ sameNotices s t ∧
        (s.link.tool = none → s.link.sendingD.isSome = true →
          t.link.tool = some (.probe (s.tools.id + 1) true) ∧ t.link.sendingD = s.link.sendingD) ∧
        (s.link.tool = none → s.link.sendingD = none → (∀ n : Fin 8, s.link.slots[n] = none) → s.link.downFifo = [] →
          t.link.sendingD = some ⟨⟨255, s.link.address, 0x31, s.link.seqD, [s.tools.id + 1, 0]⟩,
            some (.probe (s.tools.id + 1) true)⟩)) ∧
    (∀ (m : Moment) (source seq tag : Byte) (deadline : Time) (payload : List Byte) (s₀ s : State), Awake m s₀ s →
      payloadFits payload = true → s.tools.running = .census tag deadline →
      let id := payload.getD 0 0
      let hop := payload.getD 1 0
      ∃ t, exec (.answer m s.link.address source seq payload) s₀ = .next t ∧ sameBlocks s t ∧
        t.control = s.control ∧ t.counters = s.counters ∧ t.link = s.link ∧ sameNotices s t ∧
        (id ≠ s.tools.id → t.tools = s.tools) ∧
        (id = s.tools.id → (∀ e ∈ s.tools.list, e.address ≠ source) → s.tools.list.length < 32 →
          t.tools = { s.tools with list := insertEntry ⟨source, hop, false⟩ s.tools.list }) ∧
        (id = s.tools.id → (∀ e ∈ s.tools.list, e.address ≠ source) → 32 ≤ s.tools.list.length →
          t.tools = { s.tools with overflow := true }) ∧
        (id = s.tools.id → (∃ e ∈ s.tools.list, e.address = source) →
          t.tools = { s.tools with
            list := s.tools.list.map (fun e => if e.address = source then { e with conflict := true } else e) })) ∧
    (∀ (m : Moment) (tag : Byte) (deadline : Time) (s₀ s : State), Awake m s₀ s → s.tools.running = .census tag deadline →
      due deadline s.clock = true →
      ∃ t, exec (.censusWindowExpiry m) s₀ = .next t ∧ t.tools.running = .none ∧ t.tools.list = s.tools.list ∧
        t.tools.id = s.tools.id ∧
        (t.tools.result = .fail ↔
          (∃ n : Fin 8, s.config.channels[n].enabled = true ∧ answered s n = false) ∨
            ∃ e ∈ s.tools.list, e.conflict = true) ∧ t.tools.result ≠ .none ∧
        (∀ n : Fin 8, t.channels[n] = { s.channels[n] with present :=
          if s.config.channels[n].enabled then (if answered s n then .found else .missing) else s.channels[n].present }) ∧
        sameOutside s t ∧ sameScore s t ∧ sameCues s t ∧ t.placements = s.placements ∧ sameStore s t ∧
        t.control = s.control ∧ t.counters = s.counters ∧ sameRequests s t) ∧
    (∀ (m : Moment) (h : Head) (s₀ s : State), Ready m s₀ s →
      ∃ t, exec (.readCensus m h) s₀ = .next t ∧
        Answered t (responseTo h .readCensus .ok ([s.tools.id] ++
          (match s.tools.running with | .census _ _ => [(1 : Byte)] | _ => [0]) ++ be 1 s.tools.result.code ++
          (if s.tools.overflow then [(1 : Byte)] else [0]) ++ be 1 s.tools.list.length ++
          (s.tools.list.map (fun e => [e.address, e.hop] ++ (if e.conflict then [(1 : Byte)] else [0]))).flatten)) ∧
        sameBlocks s t ∧ sameRest s t ∧ sameNotices s t)

/-- A screen test is accepted, offers its frames, counts echoes and ends (R173, R178, R179, R180, R183, R184, R186).
-/
def Obligations.ScreenTestSendsCountsAndEnds : Prop :=
  (∀ (m : Moment) (h : Head) (channel : Byte) (n : Fin 8) (count : BitVec 16) (length : Byte) (gap : BitVec 16) (mode : Byte)
        (s₀ s : State), Ready m s₀ s → channel.toNat = n.val → s.config.channels[n].enabled = true →
      1 ≤ length.toNat → length.toNat ≤ 200 → 1 ≤ gap.toNat → gap.toNat ≤ 1000 → (mode = 0 ∨ mode = 1) →
      (s.control.show_ = .dark ∨ s.control.show_ = .preset) → s.tools.running = .none →
      ∃ t r, exec (.screenTest m h channel count length gap mode) s₀ = .next t ∧
        Answered t (responseTo h (.screenTest channel count length gap mode) .accepted []) ∧
        t.tools = { s.tools with running := .test r } ∧ r.tag = h.tag ∧ r.channel = n ∧ r.count = count.toNat ∧
        r.length = length.toNat ∧ r.gap = gap.toNat ∧ (r.mode = .single ↔ mode = 0) ∧ r.sent ≤ 1 ∧ r.expected = 0 ∧
        r.good = 0 ∧ r.bad = 0 ∧ r.missed = 0 ∧ r.errors = 0 ∧ TestBeside s t ∧ t.channels = s.channels) ∧
    (∀ (m : Moment) (r : TestRecord) (d : Time) (s₀ s : State), Awake m s₀ s → s.tools.running = .test r → r.gapDeadline = some d →
      due d s.clock = true → s.link.tool = none → s.link.sendingD.isSome = true →
      ∃ t, exec (.testGapExpiry m) s₀ = .next t ∧
        t.link = { s.link with tool := some (.test r.channel r.sent r.length true) } ∧
        t.tools = { s.tools with running := .test { r with gapDeadline := none } } ∧ TestBeside s t ∧
        t.channels = s.channels) ∧
    (∀ (m : Moment) (source seq : Byte) (payload : List Byte) (r : TestRecord) (s₀ s : State), Awake m s₀ s →
      payloadFits payload = true → s.tools.running = .test r →
      let q := fieldNat payload 0 2
      let skipped := (q + 65536 - r.expected) % 65536
      let sent := q < r.sent ∨ 65536 ≤ r.sent
      let intact := payload.drop 2 = testBytes q r.length
      let errors := fun k : Nat => if r.mode = .single then min (r.errors + k) 255 else (r.errors + k) % 256
      let sum := fun a d : Nat => min (a + d) 4294967295
      ∃ t, exec (.testEcho m s.link.address source seq payload) s₀ = .next t ∧ TestBeside s t ∧ t.channels = s.channels ∧
        (32768 ≤ skipped → t.tools = s.tools ∧ t.link = s.link ∧ sameNotices s t) ∧
        (skipped < 32768 → ¬ sent →
          t.tools = { s.tools with running := .test { r with bad := sum r.bad 1, errors := errors 1 } }) ∧
        (skipped < 32768 → sent → intact → t.tools = { s.tools with running := .test { r with
          missed := sum r.missed skipped, good := sum r.good 1, expected := (q + 1) % 65536, errors := errors skipped } }) ∧
        (skipped < 32768 → sent → ¬ intact → t.tools = { s.tools with running := .test { r with
          missed := sum r.missed skipped, bad := sum r.bad 1, expected := (q + 1) % 65536,
          errors := errors (skipped + 1) } })) ∧
    (∀ (m : Moment) (r : TestRecord) (d : Time) (s₀ s : State), Awake m s₀ s → s.tools.running = .test r → r.endDeadline = some d →
      due d s.clock = true →
      ∃ t, exec (.testCompletion m) s₀ = .next t ∧ t.tools = { s.tools with running := .none } ∧ TestBeside s t ∧
        (roomFor s .opDone → Admitted s t (.opDone .test r.tag .complete (be 1 r.channel ++ be 4 r.sent ++ be 4 r.good ++
          be 4 r.bad ++ be 4 r.missed ++ be 1 r.errors)))) ∧
    (∀ (m : Moment) (h : Head) (r : TestRecord) (s₀ s : State), Ready m s₀ s → s.tools.running = .test r →
      ∃ t, exec (.stopTest m h) s₀ = .next t ∧ Answered t (responseTo h .stopTest .ok [1]) ∧
        t.tools = { s.tools with running := .none } ∧ TestBeside s t) ∧
    (∀ (m : Moment) (f : Frame) (n : Fin 8) (k len : Nat) (r : TestRecord) (s₀ s : State), Awake m s₀ s →
      s.link.sendingD = some ⟨f, some (.test n k len true)⟩ → s.tools.running = .test r → s.link.tool = none →
      ∃ t, exec (.dTransmissionComplete m) s₀ = .next t ∧ TestBeside s t ∧ t.channels = s.channels ∧
        ((r.count = 0 ∨ r.sent < r.count) → t.tools = { s.tools with running := .test { r with
          gapDeadline := some (s.clock + BitVec.ofNat 48 (1000 * r.gap)) } }) ∧
        (r.count ≠ 0 → r.count ≤ r.sent → t.tools = { s.tools with running := .test { r with
          endDeadline := some (s.clock + 100000#48) } }))

/-- Every step keeps the beat period in the device range (R5, R12, R25, R126). -/
def Obligations.BeatPeriodStaysInRange : Prop :=
  ∀ s t : State, beatsSound s → step s = .next t → beatsSound t

/-- Every step keeps every queue within its places (R79, R152, R162, R171). -/
def Obligations.QueuesStayBounded : Prop :=
  ∀ s t : State, queuesSound s → step s = .next t → queuesSound t

/-- A state change to the present show state is refused with STATE (R145). -/
def Obligations.RequestsForThePresentStateAreRefused : Prop :=
  ∀ (m : Moment) (h : Head) (s₀ s : State), Ready m s₀ s →
    (s.control.show_ = .run → ∀ force, ∃ t, exec (.start m h force) s₀ = .next t ∧
      AnsweredOnly s t (responseTo h (.start force) .state [2])) ∧
    (s.control.show_ = .hold → ∃ t, exec (.hold m h) s₀ = .next t ∧ AnsweredOnly s t (responseTo h .hold .state [3])) ∧
    (s.control.show_ = .run → ∃ t, exec (.resume m h) s₀ = .next t ∧ AnsweredOnly s t (responseTo h .resume .state [2])) ∧
    (s.control.show_ = .preset → ∃ t, exec (.stop m h) s₀ = .next t ∧ AnsweredOnly s t (responseTo h .stop .state [1])) ∧
    (s.control.show_ = .dark → h.confirm = 0xEA →
      ∃ t, exec (.unload m h) s₀ = .next t ∧ AnsweredOnly s t (responseTo h .unload .state [0])) ∧
    (s.control.show_ ≠ .dark → ∀ act : Byte, 1 ≤ act.toNat → act.toNat ≤ 8 →
      ∃ t, exec (.loadAct m h act) s₀ = .next t ∧
        AnsweredOnly s t (responseTo h (.loadAct act) .state (be 1 s.control.show_.code)))

/-- A wrong confirm byte refuses the four drastic requests, and no other request examines it (R165). -/
def Obligations.ConfirmByteGuardsFourRequests : Prop :=
  (∀ (m : Moment) (h : Head) (s₀ s : State), Ready m s₀ s →
      (h.confirm ≠ 0x80 → ∃ t, exec (.restart m h) s₀ = .next t ∧ AnsweredOnly s t (responseTo h .restart .confirm [])) ∧
      (h.confirm ≠ 0xEA → ∃ t, exec (.unload m h) s₀ = .next t ∧ AnsweredOnly s t (responseTo h .unload .confirm [])) ∧
      (∀ mask duration text, h.confirm ≠ 0xDF → requestFits h (.showMessage 3 mask duration text) = true →
        ∃ t, exec (.showMessage m h 3 mask duration text) s₀ = .next t ∧
          AnsweredOnly s t (responseTo h (.showMessage 3 mask duration text) .confirm [])) ∧
      (∀ mask, h.confirm ≠ 0xDE → ∃ t, exec (.clearMessage m h 3 mask) s₀ = .next t ∧
        AnsweredOnly s t (responseTo h (.clearMessage 3 mask) .confirm [])) ∧
      (∀ level mask duration text, levelOf level = none → requestFits h (.showMessage level mask duration text) = true →
        ∃ t, exec (.showMessage m h level mask duration text) s₀ = .next t ∧
          AnsweredOnly s t (responseTo h (.showMessage level mask duration text) .range [])) ∧
      (∀ level mask, levelOf level = none → ∃ t, exec (.clearMessage m h level mask) s₀ = .next t ∧
        AnsweredOnly s t (responseTo h (.clearMessage level mask) .range []))) ∧
    (∀ (h : Head) (confirm : Byte) (r : Request) (s : State), r ≠ .restart → r ≠ .unload →
      (∀ mask duration text, r ≠ .showMessage 3 mask duration text) → (∀ mask, r ≠ .clearMessage 3 mask) →
      replyOf h r s = replyOf { h with confirm := confirm } r s)
end

