-- ==== Sys2Proof/Laws/State.lean ====
section
/-! SUPPORT. Each update of the state, field by field: the field written holds the new value, every other is as before. -/

namespace Sys2Proof.Machine

variable (s : State)

/-! ### withPending -/

@[simp] theorem withPending_pending (x : List Instr) : (s.withPending x).pending = x := rfl
@[simp] theorem withPending_powered (x : List Instr) : (s.withPending x).powered = s.powered := rfl
@[simp] theorem withPending_straps (x : List Instr) : (s.withPending x).straps = s.straps := rfl
@[simp] theorem withPending_clock (x : List Instr) : (s.withPending x).clock = s.clock := rfl
@[simp] theorem withPending_tracker (x : List Instr) : (s.withPending x).tracker = s.tracker := rfl
@[simp] theorem withPending_table (x : List Instr) : (s.withPending x).table = s.table := rfl
@[simp] theorem withPending_staging (x : List Instr) : (s.withPending x).staging = s.staging := rfl
@[simp] theorem withPending_firing (x : List Instr) : (s.withPending x).firing = s.firing := rfl
@[simp] theorem withPending_channels (x : List Instr) : (s.withPending x).channels = s.channels := rfl
@[simp] theorem withPending_placements (x : List Instr) : (s.withPending x).placements = s.placements := rfl
@[simp] theorem withPending_store (x : List Instr) : (s.withPending x).store = s.store := rfl
@[simp] theorem withPending_control (x : List Instr) : (s.withPending x).control = s.control := rfl
@[simp] theorem withPending_link (x : List Instr) : (s.withPending x).link = s.link := rfl
@[simp] theorem withPending_management (x : List Instr) : (s.withPending x).management = s.management := rfl
@[simp] theorem withPending_counters (x : List Instr) : (s.withPending x).counters = s.counters := rfl
@[simp] theorem withPending_config (x : List Instr) : (s.withPending x).config = s.config := rfl
@[simp] theorem withPending_tools (x : List Instr) : (s.withPending x).tools = s.tools := rfl

/-! ### withPowered -/

@[simp] theorem withPowered_pending (x : Bool) : (s.withPowered x).pending = s.pending := rfl
@[simp] theorem withPowered_powered (x : Bool) : (s.withPowered x).powered = x := rfl
@[simp] theorem withPowered_straps (x : Bool) : (s.withPowered x).straps = s.straps := rfl
@[simp] theorem withPowered_clock (x : Bool) : (s.withPowered x).clock = s.clock := rfl
@[simp] theorem withPowered_tracker (x : Bool) : (s.withPowered x).tracker = s.tracker := rfl
@[simp] theorem withPowered_table (x : Bool) : (s.withPowered x).table = s.table := rfl
@[simp] theorem withPowered_staging (x : Bool) : (s.withPowered x).staging = s.staging := rfl
@[simp] theorem withPowered_firing (x : Bool) : (s.withPowered x).firing = s.firing := rfl
@[simp] theorem withPowered_channels (x : Bool) : (s.withPowered x).channels = s.channels := rfl
@[simp] theorem withPowered_placements (x : Bool) : (s.withPowered x).placements = s.placements := rfl
@[simp] theorem withPowered_store (x : Bool) : (s.withPowered x).store = s.store := rfl
@[simp] theorem withPowered_control (x : Bool) : (s.withPowered x).control = s.control := rfl
@[simp] theorem withPowered_link (x : Bool) : (s.withPowered x).link = s.link := rfl
@[simp] theorem withPowered_management (x : Bool) : (s.withPowered x).management = s.management := rfl
@[simp] theorem withPowered_counters (x : Bool) : (s.withPowered x).counters = s.counters := rfl
@[simp] theorem withPowered_config (x : Bool) : (s.withPowered x).config = s.config := rfl
@[simp] theorem withPowered_tools (x : Bool) : (s.withPowered x).tools = s.tools := rfl

/-! ### withStraps -/

@[simp] theorem withStraps_pending (x : BitVec 4) : (s.withStraps x).pending = s.pending := rfl
@[simp] theorem withStraps_powered (x : BitVec 4) : (s.withStraps x).powered = s.powered := rfl
@[simp] theorem withStraps_straps (x : BitVec 4) : (s.withStraps x).straps = x := rfl
@[simp] theorem withStraps_clock (x : BitVec 4) : (s.withStraps x).clock = s.clock := rfl
@[simp] theorem withStraps_tracker (x : BitVec 4) : (s.withStraps x).tracker = s.tracker := rfl
@[simp] theorem withStraps_table (x : BitVec 4) : (s.withStraps x).table = s.table := rfl
@[simp] theorem withStraps_staging (x : BitVec 4) : (s.withStraps x).staging = s.staging := rfl
@[simp] theorem withStraps_firing (x : BitVec 4) : (s.withStraps x).firing = s.firing := rfl
@[simp] theorem withStraps_channels (x : BitVec 4) : (s.withStraps x).channels = s.channels := rfl
@[simp] theorem withStraps_placements (x : BitVec 4) : (s.withStraps x).placements = s.placements := rfl
@[simp] theorem withStraps_store (x : BitVec 4) : (s.withStraps x).store = s.store := rfl
@[simp] theorem withStraps_control (x : BitVec 4) : (s.withStraps x).control = s.control := rfl
@[simp] theorem withStraps_link (x : BitVec 4) : (s.withStraps x).link = s.link := rfl
@[simp] theorem withStraps_management (x : BitVec 4) : (s.withStraps x).management = s.management := rfl
@[simp] theorem withStraps_counters (x : BitVec 4) : (s.withStraps x).counters = s.counters := rfl
@[simp] theorem withStraps_config (x : BitVec 4) : (s.withStraps x).config = s.config := rfl
@[simp] theorem withStraps_tools (x : BitVec 4) : (s.withStraps x).tools = s.tools := rfl

/-! ### withClock -/

@[simp] theorem withClock_pending (x : Time) : (s.withClock x).pending = s.pending := rfl
@[simp] theorem withClock_powered (x : Time) : (s.withClock x).powered = s.powered := rfl
@[simp] theorem withClock_straps (x : Time) : (s.withClock x).straps = s.straps := rfl
@[simp] theorem withClock_clock (x : Time) : (s.withClock x).clock = x := rfl
@[simp] theorem withClock_tracker (x : Time) : (s.withClock x).tracker = s.tracker := rfl
@[simp] theorem withClock_table (x : Time) : (s.withClock x).table = s.table := rfl
@[simp] theorem withClock_staging (x : Time) : (s.withClock x).staging = s.staging := rfl
@[simp] theorem withClock_firing (x : Time) : (s.withClock x).firing = s.firing := rfl
@[simp] theorem withClock_channels (x : Time) : (s.withClock x).channels = s.channels := rfl
@[simp] theorem withClock_placements (x : Time) : (s.withClock x).placements = s.placements := rfl
@[simp] theorem withClock_store (x : Time) : (s.withClock x).store = s.store := rfl
@[simp] theorem withClock_control (x : Time) : (s.withClock x).control = s.control := rfl
@[simp] theorem withClock_link (x : Time) : (s.withClock x).link = s.link := rfl
@[simp] theorem withClock_management (x : Time) : (s.withClock x).management = s.management := rfl
@[simp] theorem withClock_counters (x : Time) : (s.withClock x).counters = s.counters := rfl
@[simp] theorem withClock_config (x : Time) : (s.withClock x).config = s.config := rfl
@[simp] theorem withClock_tools (x : Time) : (s.withClock x).tools = s.tools := rfl

/-! ### withTracker -/

@[simp] theorem withTracker_pending (x : Tracker) : (s.withTracker x).pending = s.pending := rfl
@[simp] theorem withTracker_powered (x : Tracker) : (s.withTracker x).powered = s.powered := rfl
@[simp] theorem withTracker_straps (x : Tracker) : (s.withTracker x).straps = s.straps := rfl
@[simp] theorem withTracker_clock (x : Tracker) : (s.withTracker x).clock = s.clock := rfl
@[simp] theorem withTracker_tracker (x : Tracker) : (s.withTracker x).tracker = x := rfl
@[simp] theorem withTracker_table (x : Tracker) : (s.withTracker x).table = s.table := rfl
@[simp] theorem withTracker_staging (x : Tracker) : (s.withTracker x).staging = s.staging := rfl
@[simp] theorem withTracker_firing (x : Tracker) : (s.withTracker x).firing = s.firing := rfl
@[simp] theorem withTracker_channels (x : Tracker) : (s.withTracker x).channels = s.channels := rfl
@[simp] theorem withTracker_placements (x : Tracker) : (s.withTracker x).placements = s.placements := rfl
@[simp] theorem withTracker_store (x : Tracker) : (s.withTracker x).store = s.store := rfl
@[simp] theorem withTracker_control (x : Tracker) : (s.withTracker x).control = s.control := rfl
@[simp] theorem withTracker_link (x : Tracker) : (s.withTracker x).link = s.link := rfl
@[simp] theorem withTracker_management (x : Tracker) : (s.withTracker x).management = s.management := rfl
@[simp] theorem withTracker_counters (x : Tracker) : (s.withTracker x).counters = s.counters := rfl
@[simp] theorem withTracker_config (x : Tracker) : (s.withTracker x).config = s.config := rfl
@[simp] theorem withTracker_tools (x : Tracker) : (s.withTracker x).tools = s.tools := rfl

/-! ### withTable -/

@[simp] theorem withTable_pending (x : CueTable) : (s.withTable x).pending = s.pending := rfl
@[simp] theorem withTable_powered (x : CueTable) : (s.withTable x).powered = s.powered := rfl
@[simp] theorem withTable_straps (x : CueTable) : (s.withTable x).straps = s.straps := rfl
@[simp] theorem withTable_clock (x : CueTable) : (s.withTable x).clock = s.clock := rfl
@[simp] theorem withTable_tracker (x : CueTable) : (s.withTable x).tracker = s.tracker := rfl
@[simp] theorem withTable_table (x : CueTable) : (s.withTable x).table = x := rfl
@[simp] theorem withTable_staging (x : CueTable) : (s.withTable x).staging = s.staging := rfl
@[simp] theorem withTable_firing (x : CueTable) : (s.withTable x).firing = s.firing := rfl
@[simp] theorem withTable_channels (x : CueTable) : (s.withTable x).channels = s.channels := rfl
@[simp] theorem withTable_placements (x : CueTable) : (s.withTable x).placements = s.placements := rfl
@[simp] theorem withTable_store (x : CueTable) : (s.withTable x).store = s.store := rfl
@[simp] theorem withTable_control (x : CueTable) : (s.withTable x).control = s.control := rfl
@[simp] theorem withTable_link (x : CueTable) : (s.withTable x).link = s.link := rfl
@[simp] theorem withTable_management (x : CueTable) : (s.withTable x).management = s.management := rfl
@[simp] theorem withTable_counters (x : CueTable) : (s.withTable x).counters = s.counters := rfl
@[simp] theorem withTable_config (x : CueTable) : (s.withTable x).config = s.config := rfl
@[simp] theorem withTable_tools (x : CueTable) : (s.withTable x).tools = s.tools := rfl

/-! ### withStaging -/

@[simp] theorem withStaging_pending (x : Staging) : (s.withStaging x).pending = s.pending := rfl
@[simp] theorem withStaging_powered (x : Staging) : (s.withStaging x).powered = s.powered := rfl
@[simp] theorem withStaging_straps (x : Staging) : (s.withStaging x).straps = s.straps := rfl
@[simp] theorem withStaging_clock (x : Staging) : (s.withStaging x).clock = s.clock := rfl
@[simp] theorem withStaging_tracker (x : Staging) : (s.withStaging x).tracker = s.tracker := rfl
@[simp] theorem withStaging_table (x : Staging) : (s.withStaging x).table = s.table := rfl
@[simp] theorem withStaging_staging (x : Staging) : (s.withStaging x).staging = x := rfl
@[simp] theorem withStaging_firing (x : Staging) : (s.withStaging x).firing = s.firing := rfl
@[simp] theorem withStaging_channels (x : Staging) : (s.withStaging x).channels = s.channels := rfl
@[simp] theorem withStaging_placements (x : Staging) : (s.withStaging x).placements = s.placements := rfl
@[simp] theorem withStaging_store (x : Staging) : (s.withStaging x).store = s.store := rfl
@[simp] theorem withStaging_control (x : Staging) : (s.withStaging x).control = s.control := rfl
@[simp] theorem withStaging_link (x : Staging) : (s.withStaging x).link = s.link := rfl
@[simp] theorem withStaging_management (x : Staging) : (s.withStaging x).management = s.management := rfl
@[simp] theorem withStaging_counters (x : Staging) : (s.withStaging x).counters = s.counters := rfl
@[simp] theorem withStaging_config (x : Staging) : (s.withStaging x).config = s.config := rfl
@[simp] theorem withStaging_tools (x : Staging) : (s.withStaging x).tools = s.tools := rfl

/-! ### withFiring -/

@[simp] theorem withFiring_pending (x : Firing) : (s.withFiring x).pending = s.pending := rfl
@[simp] theorem withFiring_powered (x : Firing) : (s.withFiring x).powered = s.powered := rfl
@[simp] theorem withFiring_straps (x : Firing) : (s.withFiring x).straps = s.straps := rfl
@[simp] theorem withFiring_clock (x : Firing) : (s.withFiring x).clock = s.clock := rfl
@[simp] theorem withFiring_tracker (x : Firing) : (s.withFiring x).tracker = s.tracker := rfl
@[simp] theorem withFiring_table (x : Firing) : (s.withFiring x).table = s.table := rfl
@[simp] theorem withFiring_staging (x : Firing) : (s.withFiring x).staging = s.staging := rfl
@[simp] theorem withFiring_firing (x : Firing) : (s.withFiring x).firing = x := rfl
@[simp] theorem withFiring_channels (x : Firing) : (s.withFiring x).channels = s.channels := rfl
@[simp] theorem withFiring_placements (x : Firing) : (s.withFiring x).placements = s.placements := rfl
@[simp] theorem withFiring_store (x : Firing) : (s.withFiring x).store = s.store := rfl
@[simp] theorem withFiring_control (x : Firing) : (s.withFiring x).control = s.control := rfl
@[simp] theorem withFiring_link (x : Firing) : (s.withFiring x).link = s.link := rfl
@[simp] theorem withFiring_management (x : Firing) : (s.withFiring x).management = s.management := rfl
@[simp] theorem withFiring_counters (x : Firing) : (s.withFiring x).counters = s.counters := rfl
@[simp] theorem withFiring_config (x : Firing) : (s.withFiring x).config = s.config := rfl
@[simp] theorem withFiring_tools (x : Firing) : (s.withFiring x).tools = s.tools := rfl

/-! ### withChannels -/

@[simp] theorem withChannels_pending (x : Vector Channel 8) : (s.withChannels x).pending = s.pending := rfl
@[simp] theorem withChannels_powered (x : Vector Channel 8) : (s.withChannels x).powered = s.powered := rfl
@[simp] theorem withChannels_straps (x : Vector Channel 8) : (s.withChannels x).straps = s.straps := rfl
@[simp] theorem withChannels_clock (x : Vector Channel 8) : (s.withChannels x).clock = s.clock := rfl
@[simp] theorem withChannels_tracker (x : Vector Channel 8) : (s.withChannels x).tracker = s.tracker := rfl
@[simp] theorem withChannels_table (x : Vector Channel 8) : (s.withChannels x).table = s.table := rfl
@[simp] theorem withChannels_staging (x : Vector Channel 8) : (s.withChannels x).staging = s.staging := rfl
@[simp] theorem withChannels_firing (x : Vector Channel 8) : (s.withChannels x).firing = s.firing := rfl
@[simp] theorem withChannels_channels (x : Vector Channel 8) : (s.withChannels x).channels = x := rfl
@[simp] theorem withChannels_placements (x : Vector Channel 8) : (s.withChannels x).placements = s.placements := rfl
@[simp] theorem withChannels_store (x : Vector Channel 8) : (s.withChannels x).store = s.store := rfl
@[simp] theorem withChannels_control (x : Vector Channel 8) : (s.withChannels x).control = s.control := rfl
@[simp] theorem withChannels_link (x : Vector Channel 8) : (s.withChannels x).link = s.link := rfl
@[simp] theorem withChannels_management (x : Vector Channel 8) : (s.withChannels x).management = s.management := rfl
@[simp] theorem withChannels_counters (x : Vector Channel 8) : (s.withChannels x).counters = s.counters := rfl
@[simp] theorem withChannels_config (x : Vector Channel 8) : (s.withChannels x).config = s.config := rfl
@[simp] theorem withChannels_tools (x : Vector Channel 8) : (s.withChannels x).tools = s.tools := rfl

/-! ### withPlacements -/

@[simp] theorem withPlacements_pending (x : List Placement) : (s.withPlacements x).pending = s.pending := rfl
@[simp] theorem withPlacements_powered (x : List Placement) : (s.withPlacements x).powered = s.powered := rfl
@[simp] theorem withPlacements_straps (x : List Placement) : (s.withPlacements x).straps = s.straps := rfl
@[simp] theorem withPlacements_clock (x : List Placement) : (s.withPlacements x).clock = s.clock := rfl
@[simp] theorem withPlacements_tracker (x : List Placement) : (s.withPlacements x).tracker = s.tracker := rfl
@[simp] theorem withPlacements_table (x : List Placement) : (s.withPlacements x).table = s.table := rfl
@[simp] theorem withPlacements_staging (x : List Placement) : (s.withPlacements x).staging = s.staging := rfl
@[simp] theorem withPlacements_firing (x : List Placement) : (s.withPlacements x).firing = s.firing := rfl
@[simp] theorem withPlacements_channels (x : List Placement) : (s.withPlacements x).channels = s.channels := rfl
@[simp] theorem withPlacements_placements (x : List Placement) : (s.withPlacements x).placements = x := rfl
@[simp] theorem withPlacements_store (x : List Placement) : (s.withPlacements x).store = s.store := rfl
@[simp] theorem withPlacements_control (x : List Placement) : (s.withPlacements x).control = s.control := rfl
@[simp] theorem withPlacements_link (x : List Placement) : (s.withPlacements x).link = s.link := rfl
@[simp] theorem withPlacements_management (x : List Placement) : (s.withPlacements x).management = s.management := rfl
@[simp] theorem withPlacements_counters (x : List Placement) : (s.withPlacements x).counters = s.counters := rfl
@[simp] theorem withPlacements_config (x : List Placement) : (s.withPlacements x).config = s.config := rfl
@[simp] theorem withPlacements_tools (x : List Placement) : (s.withPlacements x).tools = s.tools := rfl

/-! ### withStore -/

@[simp] theorem withStore_pending (x : Store) : (s.withStore x).pending = s.pending := rfl
@[simp] theorem withStore_powered (x : Store) : (s.withStore x).powered = s.powered := rfl
@[simp] theorem withStore_straps (x : Store) : (s.withStore x).straps = s.straps := rfl
@[simp] theorem withStore_clock (x : Store) : (s.withStore x).clock = s.clock := rfl
@[simp] theorem withStore_tracker (x : Store) : (s.withStore x).tracker = s.tracker := rfl
@[simp] theorem withStore_table (x : Store) : (s.withStore x).table = s.table := rfl
@[simp] theorem withStore_staging (x : Store) : (s.withStore x).staging = s.staging := rfl
@[simp] theorem withStore_firing (x : Store) : (s.withStore x).firing = s.firing := rfl
@[simp] theorem withStore_channels (x : Store) : (s.withStore x).channels = s.channels := rfl
@[simp] theorem withStore_placements (x : Store) : (s.withStore x).placements = s.placements := rfl
@[simp] theorem withStore_store (x : Store) : (s.withStore x).store = x := rfl
@[simp] theorem withStore_control (x : Store) : (s.withStore x).control = s.control := rfl
@[simp] theorem withStore_link (x : Store) : (s.withStore x).link = s.link := rfl
@[simp] theorem withStore_management (x : Store) : (s.withStore x).management = s.management := rfl
@[simp] theorem withStore_counters (x : Store) : (s.withStore x).counters = s.counters := rfl
@[simp] theorem withStore_config (x : Store) : (s.withStore x).config = s.config := rfl
@[simp] theorem withStore_tools (x : Store) : (s.withStore x).tools = s.tools := rfl

/-! ### withControl -/

@[simp] theorem withControl_pending (x : Control) : (s.withControl x).pending = s.pending := rfl
@[simp] theorem withControl_powered (x : Control) : (s.withControl x).powered = s.powered := rfl
@[simp] theorem withControl_straps (x : Control) : (s.withControl x).straps = s.straps := rfl
@[simp] theorem withControl_clock (x : Control) : (s.withControl x).clock = s.clock := rfl
@[simp] theorem withControl_tracker (x : Control) : (s.withControl x).tracker = s.tracker := rfl
@[simp] theorem withControl_table (x : Control) : (s.withControl x).table = s.table := rfl
@[simp] theorem withControl_staging (x : Control) : (s.withControl x).staging = s.staging := rfl
@[simp] theorem withControl_firing (x : Control) : (s.withControl x).firing = s.firing := rfl
@[simp] theorem withControl_channels (x : Control) : (s.withControl x).channels = s.channels := rfl
@[simp] theorem withControl_placements (x : Control) : (s.withControl x).placements = s.placements := rfl
@[simp] theorem withControl_store (x : Control) : (s.withControl x).store = s.store := rfl
@[simp] theorem withControl_control (x : Control) : (s.withControl x).control = x := rfl
@[simp] theorem withControl_link (x : Control) : (s.withControl x).link = s.link := rfl
@[simp] theorem withControl_management (x : Control) : (s.withControl x).management = s.management := rfl
@[simp] theorem withControl_counters (x : Control) : (s.withControl x).counters = s.counters := rfl
@[simp] theorem withControl_config (x : Control) : (s.withControl x).config = s.config := rfl
@[simp] theorem withControl_tools (x : Control) : (s.withControl x).tools = s.tools := rfl

/-! ### withLink -/

@[simp] theorem withLink_pending (x : Link) : (s.withLink x).pending = s.pending := rfl
@[simp] theorem withLink_powered (x : Link) : (s.withLink x).powered = s.powered := rfl
@[simp] theorem withLink_straps (x : Link) : (s.withLink x).straps = s.straps := rfl
@[simp] theorem withLink_clock (x : Link) : (s.withLink x).clock = s.clock := rfl
@[simp] theorem withLink_tracker (x : Link) : (s.withLink x).tracker = s.tracker := rfl
@[simp] theorem withLink_table (x : Link) : (s.withLink x).table = s.table := rfl
@[simp] theorem withLink_staging (x : Link) : (s.withLink x).staging = s.staging := rfl
@[simp] theorem withLink_firing (x : Link) : (s.withLink x).firing = s.firing := rfl
@[simp] theorem withLink_channels (x : Link) : (s.withLink x).channels = s.channels := rfl
@[simp] theorem withLink_placements (x : Link) : (s.withLink x).placements = s.placements := rfl
@[simp] theorem withLink_store (x : Link) : (s.withLink x).store = s.store := rfl
@[simp] theorem withLink_control (x : Link) : (s.withLink x).control = s.control := rfl
@[simp] theorem withLink_link (x : Link) : (s.withLink x).link = x := rfl
@[simp] theorem withLink_management (x : Link) : (s.withLink x).management = s.management := rfl
@[simp] theorem withLink_counters (x : Link) : (s.withLink x).counters = s.counters := rfl
@[simp] theorem withLink_config (x : Link) : (s.withLink x).config = s.config := rfl
@[simp] theorem withLink_tools (x : Link) : (s.withLink x).tools = s.tools := rfl

/-! ### withManagement -/

@[simp] theorem withManagement_pending (x : Management) : (s.withManagement x).pending = s.pending := rfl
@[simp] theorem withManagement_powered (x : Management) : (s.withManagement x).powered = s.powered := rfl
@[simp] theorem withManagement_straps (x : Management) : (s.withManagement x).straps = s.straps := rfl
@[simp] theorem withManagement_clock (x : Management) : (s.withManagement x).clock = s.clock := rfl
@[simp] theorem withManagement_tracker (x : Management) : (s.withManagement x).tracker = s.tracker := rfl
@[simp] theorem withManagement_table (x : Management) : (s.withManagement x).table = s.table := rfl
@[simp] theorem withManagement_staging (x : Management) : (s.withManagement x).staging = s.staging := rfl
@[simp] theorem withManagement_firing (x : Management) : (s.withManagement x).firing = s.firing := rfl
@[simp] theorem withManagement_channels (x : Management) : (s.withManagement x).channels = s.channels := rfl
@[simp] theorem withManagement_placements (x : Management) : (s.withManagement x).placements = s.placements := rfl
@[simp] theorem withManagement_store (x : Management) : (s.withManagement x).store = s.store := rfl
@[simp] theorem withManagement_control (x : Management) : (s.withManagement x).control = s.control := rfl
@[simp] theorem withManagement_link (x : Management) : (s.withManagement x).link = s.link := rfl
@[simp] theorem withManagement_management (x : Management) : (s.withManagement x).management = x := rfl
@[simp] theorem withManagement_counters (x : Management) : (s.withManagement x).counters = s.counters := rfl
@[simp] theorem withManagement_config (x : Management) : (s.withManagement x).config = s.config := rfl
@[simp] theorem withManagement_tools (x : Management) : (s.withManagement x).tools = s.tools := rfl

/-! ### withCounters -/

@[simp] theorem withCounters_pending (x : Vector Byte 14) : (s.withCounters x).pending = s.pending := rfl
@[simp] theorem withCounters_powered (x : Vector Byte 14) : (s.withCounters x).powered = s.powered := rfl
@[simp] theorem withCounters_straps (x : Vector Byte 14) : (s.withCounters x).straps = s.straps := rfl
@[simp] theorem withCounters_clock (x : Vector Byte 14) : (s.withCounters x).clock = s.clock := rfl
@[simp] theorem withCounters_tracker (x : Vector Byte 14) : (s.withCounters x).tracker = s.tracker := rfl
@[simp] theorem withCounters_table (x : Vector Byte 14) : (s.withCounters x).table = s.table := rfl
@[simp] theorem withCounters_staging (x : Vector Byte 14) : (s.withCounters x).staging = s.staging := rfl
@[simp] theorem withCounters_firing (x : Vector Byte 14) : (s.withCounters x).firing = s.firing := rfl
@[simp] theorem withCounters_channels (x : Vector Byte 14) : (s.withCounters x).channels = s.channels := rfl
@[simp] theorem withCounters_placements (x : Vector Byte 14) : (s.withCounters x).placements = s.placements := rfl
@[simp] theorem withCounters_store (x : Vector Byte 14) : (s.withCounters x).store = s.store := rfl
@[simp] theorem withCounters_control (x : Vector Byte 14) : (s.withCounters x).control = s.control := rfl
@[simp] theorem withCounters_link (x : Vector Byte 14) : (s.withCounters x).link = s.link := rfl
@[simp] theorem withCounters_management (x : Vector Byte 14) : (s.withCounters x).management = s.management := rfl
@[simp] theorem withCounters_counters (x : Vector Byte 14) : (s.withCounters x).counters = x := rfl
@[simp] theorem withCounters_config (x : Vector Byte 14) : (s.withCounters x).config = s.config := rfl
@[simp] theorem withCounters_tools (x : Vector Byte 14) : (s.withCounters x).tools = s.tools := rfl

/-! ### withConfig -/

@[simp] theorem withConfig_pending (x : Configuration) : (s.withConfig x).pending = s.pending := rfl
@[simp] theorem withConfig_powered (x : Configuration) : (s.withConfig x).powered = s.powered := rfl
@[simp] theorem withConfig_straps (x : Configuration) : (s.withConfig x).straps = s.straps := rfl
@[simp] theorem withConfig_clock (x : Configuration) : (s.withConfig x).clock = s.clock := rfl
@[simp] theorem withConfig_tracker (x : Configuration) : (s.withConfig x).tracker = s.tracker := rfl
@[simp] theorem withConfig_table (x : Configuration) : (s.withConfig x).table = s.table := rfl
@[simp] theorem withConfig_staging (x : Configuration) : (s.withConfig x).staging = s.staging := rfl
@[simp] theorem withConfig_firing (x : Configuration) : (s.withConfig x).firing = s.firing := rfl
@[simp] theorem withConfig_channels (x : Configuration) : (s.withConfig x).channels = s.channels := rfl
@[simp] theorem withConfig_placements (x : Configuration) : (s.withConfig x).placements = s.placements := rfl
@[simp] theorem withConfig_store (x : Configuration) : (s.withConfig x).store = s.store := rfl
@[simp] theorem withConfig_control (x : Configuration) : (s.withConfig x).control = s.control := rfl
@[simp] theorem withConfig_link (x : Configuration) : (s.withConfig x).link = s.link := rfl
@[simp] theorem withConfig_management (x : Configuration) : (s.withConfig x).management = s.management := rfl
@[simp] theorem withConfig_counters (x : Configuration) : (s.withConfig x).counters = s.counters := rfl
@[simp] theorem withConfig_config (x : Configuration) : (s.withConfig x).config = x := rfl
@[simp] theorem withConfig_tools (x : Configuration) : (s.withConfig x).tools = s.tools := rfl

/-! ### withTools -/

@[simp] theorem withTools_pending (x : Tools) : (s.withTools x).pending = s.pending := rfl
@[simp] theorem withTools_powered (x : Tools) : (s.withTools x).powered = s.powered := rfl
@[simp] theorem withTools_straps (x : Tools) : (s.withTools x).straps = s.straps := rfl
@[simp] theorem withTools_clock (x : Tools) : (s.withTools x).clock = s.clock := rfl
@[simp] theorem withTools_tracker (x : Tools) : (s.withTools x).tracker = s.tracker := rfl
@[simp] theorem withTools_table (x : Tools) : (s.withTools x).table = s.table := rfl
@[simp] theorem withTools_staging (x : Tools) : (s.withTools x).staging = s.staging := rfl
@[simp] theorem withTools_firing (x : Tools) : (s.withTools x).firing = s.firing := rfl
@[simp] theorem withTools_channels (x : Tools) : (s.withTools x).channels = s.channels := rfl
@[simp] theorem withTools_placements (x : Tools) : (s.withTools x).placements = s.placements := rfl
@[simp] theorem withTools_store (x : Tools) : (s.withTools x).store = s.store := rfl
@[simp] theorem withTools_control (x : Tools) : (s.withTools x).control = s.control := rfl
@[simp] theorem withTools_link (x : Tools) : (s.withTools x).link = s.link := rfl
@[simp] theorem withTools_management (x : Tools) : (s.withTools x).management = s.management := rfl
@[simp] theorem withTools_counters (x : Tools) : (s.withTools x).counters = s.counters := rfl
@[simp] theorem withTools_config (x : Tools) : (s.withTools x).config = s.config := rfl
@[simp] theorem withTools_tools (x : Tools) : (s.withTools x).tools = x := rfl

/-! ### withChannel -/

@[simp] theorem withChannel_pending (n : Fin 8) (x : Channel) : (s.withChannel n x).pending = s.pending := rfl
@[simp] theorem withChannel_powered (n : Fin 8) (x : Channel) : (s.withChannel n x).powered = s.powered := rfl
@[simp] theorem withChannel_straps (n : Fin 8) (x : Channel) : (s.withChannel n x).straps = s.straps := rfl
@[simp] theorem withChannel_clock (n : Fin 8) (x : Channel) : (s.withChannel n x).clock = s.clock := rfl
@[simp] theorem withChannel_tracker (n : Fin 8) (x : Channel) : (s.withChannel n x).tracker = s.tracker := rfl
@[simp] theorem withChannel_table (n : Fin 8) (x : Channel) : (s.withChannel n x).table = s.table := rfl
@[simp] theorem withChannel_staging (n : Fin 8) (x : Channel) : (s.withChannel n x).staging = s.staging := rfl
@[simp] theorem withChannel_firing (n : Fin 8) (x : Channel) : (s.withChannel n x).firing = s.firing := rfl
@[simp] theorem withChannel_channels (n : Fin 8) (x : Channel) : (s.withChannel n x).channels = s.channels.set n x := rfl
@[simp] theorem withChannel_placements (n : Fin 8) (x : Channel) : (s.withChannel n x).placements = s.placements := rfl
@[simp] theorem withChannel_store (n : Fin 8) (x : Channel) : (s.withChannel n x).store = s.store := rfl
@[simp] theorem withChannel_control (n : Fin 8) (x : Channel) : (s.withChannel n x).control = s.control := rfl
@[simp] theorem withChannel_link (n : Fin 8) (x : Channel) : (s.withChannel n x).link = s.link := rfl
@[simp] theorem withChannel_management (n : Fin 8) (x : Channel) : (s.withChannel n x).management = s.management := rfl
@[simp] theorem withChannel_counters (n : Fin 8) (x : Channel) : (s.withChannel n x).counters = s.counters := rfl
@[simp] theorem withChannel_config (n : Fin 8) (x : Channel) : (s.withChannel n x).config = s.config := rfl
@[simp] theorem withChannel_tools (n : Fin 8) (x : Channel) : (s.withChannel n x).tools = s.tools := rfl

/-- The channel written holds the new value. -/
@[simp] theorem withChannel_self (n : Fin 8) (x : Channel) : (s.withChannel n x).channels[n] = x := by simp

/-- Every other channel is as before. -/
theorem withChannel_other (n k : Fin 8) (x : Channel) (h : k ≠ n) : (s.withChannel n x).channels[k] = s.channels[k] := by
  have hne : n.val ≠ k.val := fun e => h (Fin.ext e.symm)
  simp [hne]

end Sys2Proof.Machine
end

