-- ==== Sys2Proof/Laws/Frames.lean ====
section
/-! SUPPORT. What the shared operations leave alone, in five widths: port U and its notices, counting, port D, captions,
screens, fires. One lemma for each operation says the narrowest width it keeps to. -/

namespace Sys2Proof.Machine

/-! ### The widths -/

/-- At most what a fire may change (R59): channels, staging, firing unit, read queue, both ports, notices, counters, and
the count of frames a test has sent. A busy port U keeps its frame, and the notices only grow. -/
structure FiresOnly (s t : State) : Prop where
  outside : sameOutside s t
  score : sameScore s t
  placements : t.placements = s.placements
  control : t.control = s.control
  store : ∃ queue suspended, t.store = { s.store with queue := queue, suspended := suspended }
  requests : sameRequests s t
  tools : (∀ r, s.tools.running ≠ .test r) → t.tools = s.tools
  grows : s.link.sendingU.isSome = true →
    t.link.sendingU = s.link.sendingU ∧ s.management.notices <+: t.management.notices

/-- At most what a channel's items may change: not the firing unit, and no entry of the staging set. -/
structure ScreensOnly (s t : State) : Prop extends FiresOnly s t where
  firing : t.firing = s.firing
  entries : t.staging.entries = s.staging.entries

/-- At most what a channel's captions and slips may change: not staging and not the store. -/
structure CaptionsOnly (s t : State) : Prop extends ScreensOnly s t where
  staging : t.staging = s.staging
  stores : t.store = s.store

/-- At most what counting may change: counters, notices, port U. -/
structure NoticesOnly (s t : State) : Prop extends CaptionsOnly s t where
  channels : t.channels = s.channels
  tool : t.tools = s.tools
  portD : samePortD s t

/-- At most what a notice or a response may change: the notice queue and port U. -/
structure PortUOnly (s t : State) : Prop extends NoticesOnly s t where
  counters : t.counters = s.counters
  halves : t.management.halves = s.management.halves

/-- At most what port D's choice may change: its part of the link, and the count of frames a test has sent. -/
structure PortDOnly (s t : State) : Prop extends CaptionsOnly s t where
  channels : t.channels = s.channels
  counters : t.counters = s.counters
  management : t.management = s.management
  portU : t.link.upFifo = s.link.upFifo ∧ t.link.response = s.link.response ∧ t.link.uNext = s.link.uNext ∧
    t.link.seqU = s.link.seqU ∧ t.link.sendingU = s.link.sendingU

section order
variable {s t u : State}

theorem FiresOnly.refl (s : State) : FiresOnly s s :=
  ⟨⟨rfl, rfl, rfl, rfl, rfl, rfl⟩, ⟨rfl, rfl⟩, rfl, rfl, ⟨_, _, rfl⟩, ⟨rfl, rfl, rfl⟩, fun _ => rfl,
    fun _ => ⟨rfl, List.prefix_rfl⟩⟩

theorem FiresOnly.trans (h : FiresOnly s t) (k : FiresOnly t u) : FiresOnly s u := by
  obtain ⟨⟨a1, a2, a3, a4, a5, a6⟩, ⟨b1, b2⟩, c, d, ⟨q, w, e⟩, ⟨f1, f2, f3⟩, g, i⟩ := h
  obtain ⟨⟨a1', a2', a3', a4', a5', a6'⟩, ⟨b1', b2'⟩, c', d', ⟨q', w', e'⟩, ⟨f1', f2', f3'⟩, g', i'⟩ := k
  refine ⟨⟨a1'.trans a1, a2'.trans a2, a3'.trans a3, a4'.trans a4, a5'.trans a5, a6'.trans a6⟩,
    ⟨b1'.trans b1, b2'.trans b2⟩, c'.trans c, d'.trans d, ⟨q', w', by rw [e', e]⟩,
    ⟨f1'.trans f1, f2'.trans f2, f3'.trans f3⟩, fun x => ?_, fun x => ?_⟩
  · have y := g x
    exact (g' (by rw [y]; exact x)).trans y
  · have y := i x
    have z := i' (by rw [y.1]; exact x)
    exact ⟨z.1.trans y.1, y.2.trans z.2⟩

theorem ScreensOnly.refl (s : State) : ScreensOnly s s := ⟨.refl s, rfl, rfl⟩

theorem ScreensOnly.trans (h : ScreensOnly s t) (k : ScreensOnly t u) : ScreensOnly s u :=
  ⟨h.toFiresOnly.trans k.toFiresOnly, k.firing.trans h.firing, k.entries.trans h.entries⟩

theorem CaptionsOnly.refl (s : State) : CaptionsOnly s s := ⟨.refl s, rfl, rfl⟩

theorem CaptionsOnly.trans (h : CaptionsOnly s t) (k : CaptionsOnly t u) : CaptionsOnly s u :=
  ⟨h.toScreensOnly.trans k.toScreensOnly, k.staging.trans h.staging, k.stores.trans h.stores⟩

theorem samePortD.trans (h : samePortD s t) (k : samePortD t u) : samePortD s u := by
  obtain ⟨a, b, c, d, e, f, g, i, j⟩ := h
  obtain ⟨a', b', c', d', e', f', g', i', j'⟩ := k
  exact ⟨a'.trans a, b'.trans b, c'.trans c, d'.trans d, e'.trans e, f'.trans f, g'.trans g, i'.trans i, j'.trans j⟩

theorem samePortD.refl (s : State) : samePortD s s := ⟨rfl, rfl, rfl, rfl, rfl, rfl, rfl, rfl, rfl⟩

theorem NoticesOnly.refl (s : State) : NoticesOnly s s := ⟨.refl s, rfl, rfl, .refl s⟩

theorem NoticesOnly.trans (h : NoticesOnly s t) (k : NoticesOnly t u) : NoticesOnly s u :=
  ⟨h.toCaptionsOnly.trans k.toCaptionsOnly, k.channels.trans h.channels, k.tool.trans h.tool, h.portD.trans k.portD⟩

theorem PortUOnly.refl (s : State) : PortUOnly s s := ⟨.refl s, rfl, rfl⟩

theorem PortUOnly.trans (h : PortUOnly s t) (k : PortUOnly t u) : PortUOnly s u :=
  ⟨h.toNoticesOnly.trans k.toNoticesOnly, k.counters.trans h.counters, k.halves.trans h.halves⟩

theorem PortDOnly.refl (s : State) : PortDOnly s s := ⟨.refl s, rfl, rfl, rfl, rfl, rfl, rfl, rfl, rfl⟩

theorem PortDOnly.trans (h : PortDOnly s t) (k : PortDOnly t u) : PortDOnly s u := by
  obtain ⟨h0, a, b, c, d1, d2, d3, d4, d5⟩ := h
  obtain ⟨k0, a', b', c', d1', d2', d3', d4', d5'⟩ := k
  exact ⟨h0.trans k0, a'.trans a, b'.trans b, c'.trans c, d1'.trans d1, d2'.trans d2, d3'.trans d3, d4'.trans d4,
    d5'.trans d5⟩

end order

/-! ### Replacing parts that a width leaves open -/

/-- Port U's part of the link replaced. -/
theorem PortUOnly.links (s : State) (l : Link) (h : s.link.sendingU.isSome = true → l.sendingU = s.link.sendingU)
    (ha : l.address = s.link.address)
    (hd : samePortD s (s.withLink l)) :
    PortUOnly s (s.withLink l) :=
  ⟨⟨⟨⟨⟨⟨rfl, rfl, rfl, rfl, rfl, ha⟩, ⟨rfl, rfl⟩, rfl, rfl, ⟨_, _, rfl⟩, ⟨rfl, rfl, rfl⟩, fun _ => rfl,
    fun x => ⟨h x, List.prefix_rfl⟩⟩, rfl, rfl⟩, rfl, rfl⟩, rfl, rfl, hd⟩, rfl, rfl⟩

/-- Notices, discarded flag and restart phase replaced. -/
theorem PortUOnly.managements (s : State) (g : Management)
    (h : s.link.sendingU.isSome = true → s.management.notices <+: g.notices)
    (h₁ : g.fifo = s.management.fifo) (h₂ : g.handling = s.management.handling)
    (h₃ : g.valid = s.management.valid) (h₄ : g.halves = s.management.halves) :
    PortUOnly s (s.withManagement g) :=
  ⟨⟨⟨⟨⟨⟨rfl, rfl, rfl, rfl, rfl, rfl⟩, ⟨rfl, rfl⟩, rfl, rfl, ⟨_, _, rfl⟩, ⟨h₁, h₂, h₃⟩, fun _ => rfl,
    fun x => ⟨rfl, h x⟩⟩, rfl, rfl⟩, rfl, rfl⟩, rfl, rfl, samePortD.refl s⟩, rfl, h₄⟩

/-- Port D's part of the link replaced. -/
theorem PortDOnly.of (s : State) (l : Link) (h : l.address = s.link.address)
    (h₁ : l.upFifo = s.link.upFifo) (h₂ : l.response = s.link.response)
    (h₃ : l.uNext = s.link.uNext) (h₄ : l.seqU = s.link.seqU)
    (h₅ : l.sendingU = s.link.sendingU) : PortDOnly s (s.withLink l) :=
  ⟨⟨⟨⟨⟨rfl, rfl, rfl, rfl, rfl, h⟩, ⟨rfl, rfl⟩, rfl, rfl, ⟨_, _, rfl⟩, ⟨rfl, rfl, rfl⟩, fun _ => rfl,
    fun _ => ⟨h₅, List.prefix_rfl⟩⟩, rfl, rfl⟩, rfl, rfl⟩, rfl, rfl, rfl, h₁, h₂, h₃, h₄, h₅⟩

/-- Counters replaced. -/
theorem NoticesOnly.counted (s : State) (c : Vector Byte 14) : NoticesOnly s (s.withCounters c) :=
  ⟨⟨⟨⟨⟨rfl, rfl, rfl, rfl, rfl, rfl⟩, ⟨rfl, rfl⟩, rfl, rfl, ⟨_, _, rfl⟩, ⟨rfl, rfl, rfl⟩, fun _ => rfl,
    fun _ => ⟨rfl, List.prefix_rfl⟩⟩, rfl, rfl⟩, rfl, rfl⟩, rfl, rfl, samePortD.refl s⟩

/-- The held-back COUNTER_HALF notices replaced. -/
theorem NoticesOnly.held (s : State) (halves : List Notice) :
    NoticesOnly s (s.withManagement { s.management with halves := halves }) :=
  ⟨⟨⟨⟨⟨rfl, rfl, rfl, rfl, rfl, rfl⟩, ⟨rfl, rfl⟩, rfl, rfl, ⟨_, _, rfl⟩, ⟨rfl, rfl, rfl⟩, fun _ => rfl,
    fun _ => ⟨rfl, List.prefix_rfl⟩⟩, rfl, rfl⟩, rfl, rfl⟩, rfl, rfl, samePortD.refl s⟩

/-- Channels replaced. -/
theorem CaptionsOnly.channels (s : State) (x : Vector Channel 8) : CaptionsOnly s (s.withChannels x) :=
  ⟨⟨⟨⟨rfl, rfl, rfl, rfl, rfl, rfl⟩, ⟨rfl, rfl⟩, rfl, rfl, ⟨_, _, rfl⟩, ⟨rfl, rfl, rfl⟩, fun _ => rfl,
    fun _ => ⟨rfl, List.prefix_rfl⟩⟩, rfl, rfl⟩, rfl, rfl⟩

/-- One channel replaced. -/
theorem CaptionsOnly.channel (s : State) (n : Fin 8) (x : Channel) : CaptionsOnly s (s.withChannel n x) :=
  CaptionsOnly.channels s _

/-- Staging replaced, its entries kept. -/
theorem ScreensOnly.stagings (s : State) (g : Staging) (h : g.entries = s.staging.entries) :
    ScreensOnly s (s.withStaging g) :=
  ⟨⟨⟨rfl, rfl, rfl, rfl, rfl, rfl⟩, ⟨rfl, rfl⟩, rfl, rfl, ⟨_, _, rfl⟩, ⟨rfl, rfl, rfl⟩, fun _ => rfl,
    fun _ => ⟨rfl, List.prefix_rfl⟩⟩, rfl, h⟩

/-- Read queue and suspended mark replaced. -/
theorem ScreensOnly.reads (s : State) (q : List ReadJob) (b : Bool) :
    ScreensOnly s (s.withStore { s.store with queue := q, suspended := b }) :=
  ⟨⟨⟨rfl, rfl, rfl, rfl, rfl, rfl⟩, ⟨rfl, rfl⟩, rfl, rfl, ⟨_, _, rfl⟩, ⟨rfl, rfl, rfl⟩, fun _ => rfl,
    fun _ => ⟨rfl, List.prefix_rfl⟩⟩, rfl, rfl⟩

/-- Staging replaced. -/
theorem FiresOnly.stagings (s : State) (g : Staging) : FiresOnly s (s.withStaging g) :=
  ⟨⟨rfl, rfl, rfl, rfl, rfl, rfl⟩, ⟨rfl, rfl⟩, rfl, rfl, ⟨_, _, rfl⟩, ⟨rfl, rfl, rfl⟩, fun _ => rfl,
    fun _ => ⟨rfl, List.prefix_rfl⟩⟩

/-- Firing unit replaced. -/
theorem FiresOnly.firings (s : State) (f : Firing) : FiresOnly s (s.withFiring f) :=
  ⟨⟨rfl, rfl, rfl, rfl, rfl, rfl⟩, ⟨rfl, rfl⟩, rfl, rfl, ⟨_, _, rfl⟩, ⟨rfl, rfl, rfl⟩, fun _ => rfl,
    fun _ => ⟨rfl, List.prefix_rfl⟩⟩

/-! ### Repeating -/

/-- Something done for some channels in turn keeps to a width when each does. -/
theorem foldl_keeps {α : Type} (R : State → State → Prop) (refl : ∀ s, R s s)
    (trans : ∀ s t u, R s t → R t u → R s u) (f : State → α → State) (h : ∀ s a, R s (f s a)) (l : List α) (s : State) :
    R s (l.foldl f s) := by
  induction l generalizing s with
  | nil => exact refl s
  | cons a rest ih => exact trans _ _ _ (h s a) (ih _)

/-! ### Port U (R157, R171) -/

/-- With a frame in transmission the U arbiter makes no choice. -/
theorem chooseU_busy (s : State) (h : s.link.sendingU.isSome = true) : chooseU s = s := by simp [chooseU, h]

theorem chooseU_only (s : State) : PortUOnly s (chooseU s) := by
  unfold chooseU
  split
  · exact .refl s
  · next idle =>
    have noted : ∀ q rest, PortUOnly s (sendNotice q rest s) := fun q rest => by
      unfold sendNotice
      refine .trans (t := s.withManagement _) ?_ (PortUOnly.links _ _ (fun b => absurd b idle) rfl (samePortD.refl s))
      exact PortUOnly.managements s _ (fun b => absurd b idle) rfl rfl rfl rfl
    have upward : ∀ f rest, PortUOnly s (sendUp f rest s) := fun f rest =>
      PortUOnly.links s _ (fun b => absurd b idle) rfl (samePortD.refl s)
    split
    · unfold sendResponse
      dsimp only
      split
      · refine .trans ?_ (PortUOnly.managements _ _ (fun _ => List.prefix_rfl) rfl rfl rfl rfl)
        exact PortUOnly.links s _ (fun b => absurd b idle) rfl (samePortD.refl s)
      · exact PortUOnly.links s _ (fun b => absurd b idle) rfl (samePortD.refl s)
    · split
      · exact noted _ _
      · exact upward _ _
      · exact upward _ _
      · exact noted _ _
      · exact .refl s

theorem admitNotice_only (n : Notice) (s : State) : PortUOnly s (admitNotice n s) := by
  unfold admitNotice
  dsimp only
  split
  · split
    · exact PortUOnly.managements s _ (fun _ => List.prefix_append _ _) rfl rfl rfl rfl
    · exact PortUOnly.managements s _ (fun _ => List.prefix_rfl) rfl rfl rfl rfl
  · exact .refl s

theorem notify_only (n : Notice) (s : State) : PortUOnly s (notify n s) := (admitNotice_only n s).trans (chooseU_only _)

theorem notifyAll_only (ns : List Notice) (s : State) : PortUOnly s (notifyAll ns s) :=
  foldl_keeps PortUOnly PortUOnly.refl (fun _ _ _ => PortUOnly.trans) _ (fun s n => notify_only n s) ns s

theorem placeResponse_only (r : Response) (s : State) : PortUOnly s (placeResponse r s) := by
  unfold placeResponse
  refine .trans ?_ (chooseU_only _)
  exact PortUOnly.links s _ (fun _ => rfl) rfl (samePortD.refl s)

/-- A notice of a kind that has room joins at the tail with the discarded flag, and nothing else changes. -/
theorem notify_room (n : Notice) (s : State) (h : roomFor s n.kind) :
    notify n s = s.withManagement { s.management with
      notices := s.management.notices ++ [⟨s.management.discarded, n⟩], discarded := false } := by
  obtain ⟨hu, he, hp⟩ := h
  have : admitNotice n s = s.withManagement { s.management with
      notices := s.management.notices ++ [⟨s.management.discarded, n⟩], discarded := false } := by
    simp [admitNotice, he, hp]
  rw [notify, this]
  exact chooseU_busy _ hu

/-- A notice of a disabled kind is not made. -/
theorem admitNotice_disabled (n : Notice) (s : State) (h : s.config.engine.notices[n.kind.index] = false) : admitNotice n s = s := by
  simp [admitNotice, h]

/-! ### Counting (R170) -/

theorem count_only (name : CounterName) (s : State) : NoticesOnly s (count name s) := by
  unfold count
  dsimp only
  split
  · exact (NoticesOnly.counted s _).trans (NoticesOnly.held _ _)
  · exact NoticesOnly.counted s _

theorem countTimes_only (name : CounterName) (k : Nat) (s : State) : NoticesOnly s (countTimes name k s) := by
  induction k generalizing s with
  | zero => exact .refl s
  | succ k ih => exact (count_only name s).trans (ih _)

theorem offerHalves_only (s : State) : NoticesOnly s (offerHalves s) :=
  (NoticesOnly.held s []).trans
    (foldl_keeps NoticesOnly NoticesOnly.refl (fun _ _ _ => NoticesOnly.trans) _
      (fun s n => (notify_only n s).toNoticesOnly) _ _)

/-- With no COUNTER_HALF held back there is nothing to offer. -/
theorem offerHalves_none (s : State) (h : s.management.halves = []) : offerHalves s = s := by
  have : s.withManagement { s.management with halves := [] } = s := by
    rw [← h]; rfl
  rw [offerHalves, h, this]
  rfl

/-! ### Port D (R154, R155, R156) -/

theorem countSent_only (t : ToolFrame) (s : State) : PortDOnly s (countSent t s) := by
  unfold countSent
  split
  · next r hr =>
    exact ⟨⟨⟨⟨⟨rfl, rfl, rfl, rfl, rfl, rfl⟩, ⟨rfl, rfl⟩, rfl, rfl, ⟨_, _, rfl⟩, ⟨rfl, rfl, rfl⟩,
      fun x => absurd hr (x r), fun _ => ⟨rfl, List.prefix_rfl⟩⟩, rfl, rfl⟩, rfl, rfl⟩, rfl, rfl, rfl, rfl, rfl, rfl, rfl,
      rfl⟩
  · exact .refl s

theorem serveD_only (source : SourceD) (s t : State) (h : serveD source s = some t) : PortDOnly s t := by
  unfold serveD at h
  split at h
  · obtain ⟨p, -, rfl⟩ := Option.map_eq_some_iff.1 h
    unfold sendCaption
    exact PortDOnly.of s _ rfl rfl rfl rfl rfl rfl
  · obtain ⟨f, -, rfl⟩ := Option.map_eq_some_iff.1 h
    unfold sendTool
    dsimp only
    refine .trans ?_ (countSent_only _ _)
    exact PortDOnly.of s _ rfl rfl rfl rfl rfl rfl
  · split at h
    · cases h
    · obtain rfl := Option.some.inj h
      unfold sendDown
      exact PortDOnly.of s _ rfl rfl rfl rfl rfl rfl

/-- With a frame in transmission the D arbiter makes no choice. -/
theorem chooseD_busy (s : State) (h : s.link.sendingD.isSome = true) : chooseD s = s := by simp [chooseD, h]

theorem chooseD_only (s : State) : PortDOnly s (chooseD s) := by
  unfold chooseD
  split
  · exact .refl s
  · cases h : (circularFrom s.link.dNext).findSome? (fun source => serveD source s) with
    | none => exact .refl s
    | some t =>
      obtain ⟨source, -, ht⟩ := List.exists_of_findSome?_eq_some h
      exact serveD_only source s t ht

theorem putCaption_only (c : Caption) (s : State) : PortDOnly s (putCaption c s) := by
  unfold putCaption
  dsimp only
  refine .trans ?_ (chooseD_only _)
  exact PortDOnly.of s _ rfl rfl rfl rfl rfl rfl

theorem offerTool_only (t : ToolFrame) (s : State) : PortDOnly s (offerTool t s) := by
  unfold offerTool
  split
  · refine .trans ?_ (chooseD_only _)
    exact PortDOnly.of s _ rfl rfl rfl rfl rfl rfl
  · exact PortDOnly.of s _ rfl rfl rfl rfl rfl rfl

theorem leaveTool_only (s : State) : PortDOnly s (leaveTool s) := by
  unfold leaveTool
  exact PortDOnly.of s _ rfl rfl rfl rfl rfl rfl

/-! ### Captions and slips (R88 to R92) -/

theorem writeCaption_only (n : Fin 8) (s : State) : CaptionsOnly s (writeCaption n s) :=
  (CaptionsOnly.channel s n _).trans (putCaption_only _ _).toCaptionsOnly

theorem recompose_only (n : Fin 8) (why : Arrived) (s : State) : CaptionsOnly s (recompose n why s) := by
  unfold recompose
  dsimp only
  split
  · split
    · exact CaptionsOnly.channel s n _
    · exact (CaptionsOnly.channel s n _).trans (writeCaption_only n _)
  · exact .refl s

theorem takeEffect_only (n : Fin 8) (i : Item) (s : State) : CaptionsOnly s (takeEffect n i s) := by
  have slip : CaptionsOnly s
      (if s.config.engine.slip ≤ slipOf i s.clock then
        notify (.titleSlip n i.cue i.label i.kind i.resync (millis i.fired) (millis s.clock) (slipOf i s.clock)) s
       else s) := by
    split
    · exact (notify_only _ s).toCaptionsOnly
    · exact .refl s
  unfold takeEffect
  dsimp only
  split
  · exact (slip.trans (CaptionsOnly.channel _ n _)).trans (count_only _ _).toCaptionsOnly
  · exact slip.trans (CaptionsOnly.channel _ n _)

theorem showTitle_only (n : Fin 8) (i : Item) (s : State) : CaptionsOnly s (showTitle n i s) :=
  ((CaptionsOnly.channel s n _).trans (recompose_only n _ _)).trans (takeEffect_only n i _)

theorem takeBlank_only (n : Fin 8) (i : Item) (s : State) : CaptionsOnly s (takeBlank n i s) :=
  ((CaptionsOnly.channel s n _).trans (recompose_only n _ _)).trans (takeEffect_only n i _)

/-! ### Arrival and release (R79 to R85) -/

theorem releaseLoop_only (n : Fin 8) (fuel : Nat) (s : State) : CaptionsOnly s (releaseLoop n fuel s) := by
  induction fuel generalizing s with
  | zero => exact .refl s
  | succ fuel ih =>
    unfold releaseLoop
    dsimp only
    split
    · exact .refl s
    · split
      · exact .refl s
      · split
        · exact CaptionsOnly.channel s n _
        · split
          · exact ((CaptionsOnly.channel s n _).trans (takeBlank_only n _ _)).trans (ih _)
          · split
            · exact (CaptionsOnly.channel s n _).trans (showTitle_only n _ _)
            · exact ((CaptionsOnly.channel s n _).trans (CaptionsOnly.channel _ n _)).trans (recompose_only n _ _)

theorem release_only (n : Fin 8) (s : State) : CaptionsOnly s (release n s) := by
  unfold release
  split
  · exact releaseLoop_only n _ s
  · exact .refl s

theorem catchUpJoin_only (n : Fin 8) (s : State) : CaptionsOnly s (catchUpJoin n s) := by
  unfold catchUpJoin
  dsimp only
  split
  · split
    · exact (CaptionsOnly.channel s n _).trans (release_only n _)
    · exact CaptionsOnly.channel s n _
  · exact .refl s

theorem dropOldest_only (n : Fin 8) (s : State) : CaptionsOnly s (dropOldest n s) := by
  unfold dropOldest
  split
  · exact ((CaptionsOnly.channel s n _).trans (count_only _ _).toCaptionsOnly).trans (notify_only _ _).toCaptionsOnly
  · exact .refl s

theorem withdrawLost_only (n : Fin 8) (lost : List Item) (s : State) : ScreensOnly s (withdrawLost n lost s) :=
  foldl_keeps ScreensOnly ScreensOnly.refl (fun _ _ _ => ScreensOnly.trans) _ (fun s i => by
    split
    · exact ScreensOnly.stagings s _ rfl
    · exact .refl s) lost s

theorem itemJoins_only (n : Fin 8) (i : Item) (s : State) : ScreensOnly s (itemJoins n i s) := by
  unfold itemJoins
  extract_lets full lost s1 src s2 s3
  have h1 : CaptionsOnly s s1 := by
    unfold s1
    split
    · exact dropOldest_only n s
    · exact .refl s
  have h2 : CaptionsOnly s s2 := h1.trans (CaptionsOnly.channel _ n _)
  have h3 : ScreensOnly s s3 := h2.toScreensOnly.trans (withdrawLost_only n _ _)
  split
  · exact h3.trans (catchUpJoin_only n _).toScreensOnly
  · exact h3.trans (release_only n _).toScreensOnly
  · exact h3.trans (release_only n _).toScreensOnly
  · exact h3
  · exact h3

theorem itemResyncs_only (n : Fin 8) (i : Item) (s : State) : ScreensOnly s (itemResyncs n i s) := by
  unfold itemResyncs
  extract_lets c lost emptied src s0 s1
  split
  · exact (((CaptionsOnly.channel s n _).toScreensOnly.trans (withdrawLost_only n _ _)).trans
      (recompose_only n _ _).toScreensOnly).trans (release_only n _).toScreensOnly
  · have h1 : ScreensOnly s s1 := (CaptionsOnly.channel s n _).toScreensOnly.trans (withdrawLost_only n _ _)
    split
    · exact h1.trans (showTitle_only n i _).toScreensOnly
    · exact h1.trans (takeBlank_only n i _).toScreensOnly

theorem itemArrives_only (n : Fin 8) (i : Item) (s : State) : ScreensOnly s (itemArrives n i s) := by
  unfold itemArrives
  split
  · exact withdrawLost_only n _ s
  · split
    · exact itemResyncs_only n i s
    · exact itemJoins_only n i s

theorem deliver_only (k : Key) (result : Staged) (n : Fin 8) (s : State) : CaptionsOnly s (deliver k result n s) := by
  unfold deliver
  dsimp only
  split
  · exact (CaptionsOnly.channel s n _).trans (release_only n _)
  · exact CaptionsOnly.channel s n _

theorem gapExpired_only (n : Fin 8) (s : State) : CaptionsOnly s (gapExpired n s) := by
  unfold gapExpired
  dsimp only
  split
  · split
    · exact (CaptionsOnly.channel s n _).trans (showTitle_only n _ _)
    · exact .refl s
  · exact .refl s

theorem readingExpired_only (n : Fin 8) (s : State) : CaptionsOnly s (readingExpired n s) := by
  unfold readingExpired
  dsimp only
  split
  · split
    · exact (CaptionsOnly.channel s n _).trans (release_only n _)
    · exact (CaptionsOnly.channel s n _).trans (release_only n _)
    all_goals exact CaptionsOnly.channel s n _
  · exact .refl s

/-! ### All channels -/

theorem forChannels_keeps (R : State → State → Prop) (refl : ∀ s, R s s) (trans : ∀ s t u, R s t → R t u → R s u)
    (f : Fin 8 → State → State) (h : ∀ n s, R s (f n s)) (s : State) : R s (forChannels f s) :=
  foldl_keeps R refl trans _ (fun s n => h n s) allChannels s

theorem tellChannels_only (set : ChannelSet) (why : Arrived) (s : State) : CaptionsOnly s (tellChannels set why s) :=
  forChannels_keeps CaptionsOnly CaptionsOnly.refl (fun _ _ _ => CaptionsOnly.trans) _ (fun n s => by
    split
    · exact recompose_only n why s
    · exact .refl s) s

theorem emptyChannels_only (layer : Layer) (s : State) : CaptionsOnly s (emptyChannels layer s) :=
  forChannels_keeps CaptionsOnly CaptionsOnly.refl (fun _ _ _ => CaptionsOnly.trans) _ (fun n s => by
    unfold emptyChannel
    split
    · exact (CaptionsOnly.channel s n _).trans (recompose_only n _ _)
    · exact .refl s) s

/-! ### Staging (R40 to R45) -/

theorem joinQueue_only (job : ReadJob) (s : State) : ScreensOnly s (joinQueue job s) := ScreensOnly.reads s _ _

theorem leaveQueue_only (s : State) : ScreensOnly s (leaveQueue s) := ScreensOnly.reads s _ _

theorem stage_only (s : State) : ScreensOnly s (stage s) := by
  unfold stage
  split
  · exact .refl s
  · split
    · exact .refl s
    · split
      · exact .refl s
      · refine .trans ?_ (joinQueue_only _ _)
        exact ScreensOnly.stagings s _ rfl

theorem awaitText_only (k : Key) (n : Fin 8) (s : State) : ScreensOnly s (awaitText k n s) := by
  refine .trans ?_ (stage_only _)
  refine ScreensOnly.stagings s _ ?_
  unfold Staging.await
  split <;> rfl

theorem stagingAdvance_only (s : State) : FiresOnly s (stagingAdvance s) :=
  (FiresOnly.stagings s _).trans (stage_only _).toFiresOnly

theorem flush_only (s : State) : FiresOnly s (flush s) := (FiresOnly.stagings s _).trans (stage_only _).toFiresOnly

/-! ### Fires (R51 to R72) -/

theorem fireChannel_only (i : Nat) (resync : Bool) (n : Fin 8) (s : State) :
    ScreensOnly s (fireChannel i resync n s) := by
  unfold fireChannel
  split
  · exact .refl s
  · split
    · dsimp only
      split
      · exact (awaitText_only _ n s).trans (itemArrives_only n _ _)
      · exact itemArrives_only n _ s
    · exact itemArrives_only n _ s
    · exact .refl s

theorem fireCue_only (i : Nat) (cause : FireCause) (s : State) : FiresOnly s (fireCue i cause s) := by
  unfold fireCue
  extract_lets s1 s2 s3 s4
  have h1 : FiresOnly s s1 := forChannels_keeps FiresOnly FiresOnly.refl (fun _ _ _ => FiresOnly.trans) _
    (fun n s => (fireChannel_only i _ n s).toFiresOnly) s
  have h2 : FiresOnly s s2 := (h1.trans (FiresOnly.firings _ _)).trans (stagingAdvance_only _)
  have h3 : FiresOnly s s3 := by
    unfold s3
    split
    · exact h2.trans (flush_only _)
    · exact h2
  have h4 : FiresOnly s s4 := h3.trans (notify_only _ _).toFiresOnly
  split
  · exact h4.trans (notify_only _ _).toFiresOnly
  · exact h4

theorem overrun_only (q : Nat) (s : State) : NoticesOnly s (overrun q s) := by
  unfold overrun
  dsimp only
  split
  · exact (countTimes_only _ _ s).trans (notify_only _ _).toNoticesOnly
  · exact .refl s

theorem fireRun_only (start : Nat) (cause : FireCause) (s : State) : FiresOnly s (fireRun start cause s) :=
  (overrun_only _ s).toFiresOnly.trans (fireCue_only _ cause _)

theorem fireDue_only (d : DueFire) (s : State) : FiresOnly s (fireDue d s) := by
  cases d with
  | nothing => exact .refl s
  | mark => exact fireRun_only s.firing.pointer .mark s
  | count => exact fireCue_only s.firing.pointer .count s
  | follow => exact fireCue_only s.firing.pointer .follow s
  | watch start => exact fireRun_only start .overrun s

theorem armChain_only (fuel : Nat) (s : State) : FiresOnly s (armChain fuel s) := by
  induction fuel generalizing s with
  | zero => exact .refl s
  | succ fuel ih =>
    unfold armChain
    dsimp only
    split
    · exact FiresOnly.firings s _
    · exact ((FiresOnly.firings s _).trans (fireDue_only _ _)).trans (ih _)

theorem arm_only (s : State) : FiresOnly s (arm s) := by
  unfold arm
  split
  · exact armChain_only _ s
  · exact .refl s

theorem fire_only (i : Nat) (cause : FireCause) (s : State) : FiresOnly s (fire i cause s) :=
  (fireCue_only i cause s).trans (arm_only _)

theorem placePointer_only (p : Nat) (s : State) : FiresOnly s (placePointer p s) := by
  unfold placePointer
  dsimp only
  split
  · exact (FiresOnly.firings s _).trans (FiresOnly.firings _ _)
  · exact FiresOnly.firings s _

theorem reseek_only (pos : Nat) (s : State) : FiresOnly s (reseek pos s) := by
  have quietly := fun j => ((FiresOnly.firings s (s.firing.forget j)).trans (placePointer_only j _)).trans (flush_only _)
  unfold reseek
  dsimp only
  split
  · exact fire_only _ _ s
  · split
    · exact (quietly _).trans (arm_only _)
    · exact quietly _

theorem consultCount_only (e : ReportEvent) (s : State) : FiresOnly s (consultCount e s) := by
  unfold consultCount
  split
  · split
    · exact FiresOnly.firings s _
    · exact .refl s
  · exact .refl s

theorem onReport_only (e : ReportEvent) (s : State) : FiresOnly s (onReport e s) := by
  have sought : FiresOnly s (match e.reseek with | some p => reseek p s | none => s) := by
    split
    · exact reseek_only _ s
    · exact .refl s
  unfold onReport
  dsimp only
  split
  · exact sought.trans (arm_only _)
  · exact (sought.trans (consultCount_only e _)).trans (arm_only _)

theorem ignoreGo_only (reason : GoReason) (target : Label) (back : Bool) (f : Found) (s : State) :
    NoticesOnly s (ignoreGo reason target back f s) := by
  unfold ignoreGo
  dsimp only
  split
  · exact (count_only _ s).trans (notify_only _ _).toNoticesOnly
  · exact (notify_only _ s).toNoticesOnly

theorem goInRun_only (target : Label) (back : Bool) (f : Found) (s : State) : FiresOnly s (goInRun target back f s) := by
  have ignored := fun reason b => (ignoreGo_only reason target b f s).toFiresOnly
  unfold goInRun goBack goForward
  dsimp only
  split
  · split
    · split
      · exact fire_only _ _ s
      · exact ignored _ _
    · split
      · exact ignored _ _
      · split
        · split
          · exact fire_only _ _ s
          · exact ignored _ _
        · exact ignored _ _
  · split
    · split
      · exact fire_only _ _ s
      · exact ignored _ _
    · split
      · exact ignored _ _
      · split
        · exact fire_only _ _ s
        · split
          · exact fire_only _ _ s
          · exact ignored _ _

end Sys2Proof.Machine
end

