-- ==== Sys2Proof/Laws/Requests.lean ====
section
/-! SUPPORT. What a command's moment, an answered request, and the larger operations come to, each said once over the
widths of Laws/Frames.lean. -/

namespace Sys2Proof.Machine

/-! ### What a width says of the blocks -/

/-- Counting keeps every block, show controller and tools. -/
theorem NoticesOnly.sameBlocks {s t : State} (h : NoticesOnly s t) :
    sameBlocks s t ∧ t.control = s.control ∧ t.tools = s.tools :=
  ⟨⟨h.outside, h.score, ⟨h.staging, h.firing⟩, ⟨h.channels, h.placements⟩, h.stores, h.portD, h.requests⟩, h.control,
    h.tool⟩

/-- The width of port U keeps every block and the counters. -/
theorem PortUOnly.sameRest {s t : State} (h : PortUOnly s t) : Machine.sameBlocks s t ∧ Machine.sameRest s t :=
  ⟨h.toNoticesOnly.sameBlocks.1, h.control, h.tool, h.counters⟩

/-! ### Held-back notices -/

/-- No held-back notice is left once they are offered. -/
theorem offerHalves_halves (s : State) : (offerHalves s).management.halves = [] := by
  have : ∀ (ns : List Notice) (s : State),
      (ns.foldl (fun s n => notify n s) s).management.halves = s.management.halves := by
    intro ns
    induction ns with
    | nil => exact fun _ => rfl
    | cons n rest ih => exact fun s => (ih _).trans (notify_only n s).halves
  exact this _ _

/-! ### Reads of units (R114, R115) -/

/-- From s to t a reader's own fields of the store were replaced (trap, region, units read), and for the rest only
counting went on. -/
def ReadsOnly (s t : State) : Prop :=
  ∃ trap region reads, NoticesOnly (s.withStore { s.store with trap := trap, region := region, reads := reads }) t

/-- A reader's fields replaced on both sides of a width of counting. -/
theorem NoticesOnly.swap {s t : State} (h : NoticesOnly s t) (trap : Option Trap) (region : Option Region) (reads : Nat) :
    NoticesOnly (s.withStore { s.store with trap := trap, region := region, reads := reads })
      (t.withStore { t.store with trap := trap, region := region, reads := reads }) := by
  refine ⟨⟨⟨⟨h.outside, h.score, h.placements, h.control, ?_, h.requests, h.tools, h.grows⟩, h.firing, h.entries⟩,
    h.staging, ?_⟩, h.channels, h.tool, h.portD⟩
  · exact ⟨t.store.queue, t.store.suspended, by simp [h.stores]⟩
  · simp [h.stores]

theorem NoticesOnly.reads {s t : State} (h : NoticesOnly s t) : ReadsOnly s t :=
  ⟨s.store.trap, s.store.region, s.store.reads, h⟩

theorem ReadsOnly.refl (s : State) : ReadsOnly s s := (NoticesOnly.refl s).reads

theorem ReadsOnly.trans {s t u : State} (h : ReadsOnly s t) (k : ReadsOnly t u) : ReadsOnly s u := by
  obtain ⟨a, b, c, h⟩ := h
  obtain ⟨x, y, z, k⟩ := k
  exact ⟨x, y, z, NoticesOnly.trans (h.swap x y z) k⟩

/-- Replacing a reader's fields alone. -/
theorem ReadsOnly.of (s : State) (trap : Option Trap) (region : Option Region) (reads : Nat) :
    ReadsOnly s (s.withStore { s.store with trap := trap, region := region, reads := reads }) :=
  ⟨trap, region, reads, .refl _⟩

theorem readUnit_only (reader : Reader) (s : State) (unit : Nat) : ReadsOnly s (readUnit reader s unit) := by
  unfold readUnit
  split
  · dsimp only
    split
    · exact (count_only _ s).reads
    · exact (count_only _ s).reads.trans (ReadsOnly.of _ (some _) _ _)
  · split
    · exact (count_only _ s).reads
    · exact .refl s

/-- Reading units counts and may fill the address trap, and otherwise changes nothing (R115). -/
theorem readUnits_only (reader : Reader) (units : List Nat) (s : State) : ReadsOnly s (readUnits reader units s) :=
  foldl_keeps ReadsOnly ReadsOnly.refl (fun _ _ _ => ReadsOnly.trans) _ (readUnit_only reader) units s

theorem readNext_only (reader : Reader) (s : State) (unit : Nat) : ReadsOnly s (readNext reader s unit) :=
  ((offerHalves_only s).reads.trans (readUnit_only reader _ unit)).trans (ReadsOnly.of _ _ _ _)

/-- An operation's reads keep to the width of reading (R114). -/
theorem readOn_only (reader : Reader) (units : List Nat) (s : State) : ReadsOnly s (readOn reader units s) :=
  foldl_keeps ReadsOnly ReadsOnly.refl (fun _ _ _ => ReadsOnly.trans) _ (readNext_only reader) units s

theorem regionTaken_only (s : State) : ReadsOnly s (regionTaken s) := by
  unfold regionTaken
  split
  · split
    · split
      · exact ReadsOnly.of s _ (some _) _
      · exact .refl s
    · exact .refl s
  · exact .refl s

theorem readAhead_only (n : Nat) (s : State) : ReadsOnly s (readAhead n s) := by
  unfold readAhead
  split
  · split
    · exact (readOn_only _ _ s).trans (regionTaken_only _)
    · exact .refl s
  · exact .refl s

/-! ### The moment of a command -/

/-- The state a command finds: clock and units' condition as given, and otherwise only what reads change. -/
theorem atMoment_only (m : Moment) (s : State) :
    ReadsOnly ((s.withClock m.clock).withStore { s.store with faults := m.faults }) (atMoment m s) :=
  (readAhead_only m.reads _).trans (offerHalves_only _).reads

/-- With no operation that reads in flight and no notice held back, only clock and units' condition move on. -/
theorem atMoment_plain (m : Moment) (s : State) (h : s.store.work = none) (hh : s.management.halves = []) :
    atMoment m s = (s.withClock m.clock).withStore { s.store with faults := m.faults } := by
  have hw : ((s.withClock m.clock).withStore { s.store with faults := m.faults }).store.work = none := h
  rw [atMoment, readAhead, hw]
  exact offerHalves_none _ hh

theorem Awake.halves {m : Moment} {s₀ s : State} (h : Awake m s₀ s) : s.management.halves = [] := by
  rw [h.found]
  exact offerHalves_halves _

/-- A command with a moment, with power: its effect on the state it finds, then the COUNTER_HALF notices held back. -/
theorem during_awake {m : Moment} {s₀ s : State} (effect : State → State) (h : Awake m s₀ s) :
    during m s₀ effect = .next (offerHalves (effect s)) := by
  rw [during, if_pos h.powered, ← h.found]

/-- The same when the effect holds back no COUNTER_HALF notice. -/
theorem during_plain {m : Moment} {s₀ s : State} (effect : State → State) (h : Awake m s₀ s)
    (hn : (effect s).management.halves = []) : during m s₀ effect = .next (effect s) := by
  rw [during_awake effect h, offerHalves_none _ hn]

/-! ### Notices -/

/-- An admitted notice stays admitted while the queue only grows. -/
theorem Admitted.mono {s t u : State} {n : Notice} (h : Admitted s t n)
    (k : t.management.notices <+: u.management.notices) : Admitted s u n := List.IsPrefix.trans h k

/-- A notice of a kind that has room is admitted. -/
theorem notify_admitted (n : Notice) (s : State) (h : roomFor s n.kind) : Admitted s (notify n s) n := by
  rw [notify_room n s h]
  exact List.prefix_rfl

/-! ### Responses (R163, R164) -/

/-- A response placed stands in the slot or is in transmission on port U. -/
theorem placeResponse_answered (r : Response) (s : State) : Answered (placeResponse r s) r := by
  unfold placeResponse chooseU
  split
  · exact .inl rfl
  · dsimp only [withLink_link]
    unfold sendResponse
    dsimp only
    split
    · exact .inr ⟨_, rfl, rfl, rfl, rfl, rfl⟩
    · exact .inr ⟨_, rfl, rfl, rfl, rfl, rfl⟩

/-- A response placed leaves the notice queue and its flag alone. -/
theorem placeResponse_notices (r : Response) (s : State) : sameNotices s (placeResponse r s) := by
  unfold placeResponse chooseU
  split
  · exact ⟨rfl, rfl⟩
  · dsimp only [withLink_link]
    unfold sendResponse
    dsimp only
    split <;> exact ⟨rfl, rfl⟩

/-- With no COUNTER_HALF held back, a request is answered by placing its response and ending the handling. -/
theorem respond_plain (g : Handling) (result : Result) (data : List Byte) (s : State) (h : s.management.halves = []) :
    respond g result data s =
      placeResponse { dest := g.source, code := g.code, tag := g.tag, result := result, data := data }
        (s.withManagement { s.management with handling := none }) := by
  rw [respond, offerHalves_none s h]

/-- Answering places the response, whatever notices were held back. -/
theorem respond_answered (g : Handling) (result : Result) (data : List Byte) (s : State) :
    Answered (respond g result data s)
      { dest := g.source, code := g.code, tag := g.tag, result := result, data := data } :=
  placeResponse_answered _ _

/-- Answering ends the handling and otherwise keeps to counting's width. -/
theorem respond_only (g : Handling) (result : Result) (data : List Byte) (s : State) :
    ∃ u, NoticesOnly s u ∧
      PortUOnly (u.withManagement { u.management with handling := none }) (respond g result data s) :=
  ⟨Machine.offerHalves s, offerHalves_only s, placeResponse_only _ _⟩

/-- No held-back notice is left after an answer. -/
theorem respond_halves (g : Handling) (result : Result) (data : List Byte) (s : State) :
    (respond g result data s).management.halves = [] :=
  (placeResponse_only _ _).halves.trans (offerHalves_halves s)

/-! ### Requests taken at once (R163) -/

/-- A ready management block takes a request. -/
theorem Ready.free {m : Moment} {s₀ s : State} (h : Ready m s₀ s) : managementFree s = true := by
  simp [managementFree, h.handling, h.response, h.restart]

/-- A request whose payload fits a frame is handled at once when the management block is ready. -/
theorem submit_ready {m : Moment} {s₀ s : State} (h : Head) (r : Request) (hs : Ready m s₀ s)
    (hf : (requestPayload r h.tag h.confirm).length ≤ Config.payloadMax) : submit h r s = handleRequest h r s := by
  rw [submit, if_neg (Nat.not_lt.2 hf), if_pos ⟨hs.fifo, hs.free⟩]

/-- The state in which the owner of a request sees it. -/
def inHand (h : Head) (r : Request) (s : State) : State := takeInHand (handlingOf h (requestCode r)) s

/-- A ready request's command: the owner's answer carried out. -/
theorem request_answered {m : Moment} {s₀ s : State} (h : Head) (r : Request) (u : State) (result : Result)
    (data : List Byte) (hs : Ready m s₀ s) (hf : (requestPayload r h.tag h.confirm).length ≤ Config.payloadMax)
    (hr : replyOf h r (inHand h r s) = .answer u result data) :
    during m s₀ (submit h r) = .next (respond (handlingOf h (requestCode r)) result data u) ∧
      Answered (respond (handlingOf h (requestCode r)) result data u) (responseTo h r result data) := by
  have e : submit h r s = respond (handlingOf h (requestCode r)) result data u := by
    rw [submit_ready h r hs hf, handleRequest]
    rw [show takeInHand (handlingOf h (requestCode r)) s = inHand h r s from rfl, hr]
    rfl
  refine ⟨?_, respond_answered _ _ _ _⟩
  rw [during_awake _ hs.toAwake, e, offerHalves_none _ (respond_halves _ _ _ _)]

/-- A ready request whose owner answers without a change is answered with nothing else done. -/
theorem request_answeredOnly {m : Moment} {s₀ s : State} (h : Head) (r : Request) (result : Result) (data : List Byte)
    (hs : Ready m s₀ s) (hf : (requestPayload r h.tag h.confirm).length ≤ Config.payloadMax)
    (hr : replyOf h r (inHand h r s) = .answer (inHand h r s) result data) :
    ∃ t, during m s₀ (submit h r) = .next t ∧ AnsweredOnly s t (responseTo h r result data) := by
  obtain ⟨hn, ha⟩ := request_answered h r _ result data hs hf hr
  refine ⟨_, hn, ha, ?_⟩
  have hh : (inHand h r s).management.halves = [] := hs.halves
  have back : (inHand h r s).withManagement { (inHand h r s).management with handling := none } = s := by
    have e : s.management.handling = none := hs.handling
    unfold inHand takeInHand
    simp only [withManagement_management]
    have : ({ s.management with handling := none } : Management) = s.management := by
      rw [← e]
    rw [this]
    rfl
  rw [respond_plain _ _ _ _ hh, back]
  have only := placeResponse_only
    { dest := h.source, code := requestCode r, tag := h.tag, result := result, data := data } s
  have same := placeResponse_notices
    { dest := h.source, code := requestCode r, tag := h.tag, result := result, data := data } s
  exact ⟨only.sameRest.1, only.sameRest.2, same⟩

/-! ### Larger operations -/

theorem opDone_only (op : OpName) (tag : Byte) (result : DoneResult) (data : List Byte) (s : State) :
    PortUOnly s (opDone op tag result data s) := by
  unfold opDone
  split
  · exact notify_only _ s
  · exact .refl s

theorem showNotice_only (previous : ShowState) (cause : ShowCause) (tag : Option Byte) (s : State) :
    PortUOnly s (showNotice previous cause tag s) := notify_only _ s

/-- What the tracker hands on leaves the new tracker in place and otherwise keeps to a fire's width. -/
theorem track_only (out : Tracked) (s : State) : FiresOnly (s.withTracker out.tracker) (track out s) := by
  have counted := (countTimes_only .seqGap out.gaps (s.withTracker out.tracker)).trans
    (countTimes_only .rateReject out.rejects _)
  have said := counted.toFiresOnly.trans (notifyAll_only out.notices _).toFiresOnly
  unfold track
  dsimp only
  split
  · exact said.trans (onReport_only _ _)
  · exact said

/-- A tracker deadline's effect leaves the new tracker in place and otherwise keeps to a fire's width. -/
theorem trackDeadline_only (out : Tracker × List Notice × Bool) (s : State) :
    FiresOnly (s.withTracker out.1) (trackDeadline out s) := by
  have said := (notifyAll_only out.2.1 (s.withTracker out.1)).toFiresOnly
  unfold trackDeadline
  dsimp only
  split
  · exact said.trans (arm_only _)
  · exact said

theorem resetTracker_only (beat : Nat) (s : State) :
    PortUOnly (s.withTracker (s.tracker.resetTo beat s.clock)) (resetTracker beat s) := notifyAll_only _ _

/-- The show leaving HOLD keeps to a fire's width but for the show state. -/
theorem resumeShow_only (cause : ShowCause) (tag : Option Byte) (s : State) :
    FiresOnly (setShow .run s) (resumeShow cause tag s) :=
  (showNotice_only .hold cause tag _).toFiresOnly.trans (arm_only _)

/-- A test's end leaves no tool running and otherwise keeps to captions. -/
theorem endTest_only (r : TestRecord) (cause : DoneResult) (s : State) :
    CaptionsOnly (s.withTools { s.tools with running := .none }) (endTest r cause s) := by
  have left := (leaveTool_only (s.withTools { s.tools with running := .none })).toCaptionsOnly
  unfold endTest
  dsimp only
  split
  · exact left.trans (notify_only _ _).toCaptionsOnly
  · exact (left.trans (notify_only _ _).toCaptionsOnly).trans (writeCaption_only _ _)

end Sys2Proof.Machine
end

