-- ==== Sys2Proof/Laws/Captions.lean ====
section
/-! SUPPORT. What composing a channel's content comes to (R90, R91, R93, R94, R154), and the value of a counter after
several increments (R170). -/

namespace Sys2Proof.Machine

/-- With its title layer on top a channel composes what that calls for (R90). -/
theorem contentOf_onTop {s : State} {n : Fin 8} (h : OnTop s n) : contentOf s n = titleContent s.channels[n] := by
  rw [contentOf, if_pos h.1, h.2]

/-- Beneath a message, or disabled, what the title layer does changes nothing (R90, R91). -/
theorem beneath_unchanged {s : State} {n : Fin 8} (h : Beneath s n) {why : Arrived} (hw : why = .nothing ∨ why = .title) :
    contentChanges s.channels[n].content (contentOf s n) why = false := by
  obtain ⟨he, hc⟩ | ⟨he, p, hp, bytes, lines, hc⟩ := h
  · rw [contentOf, if_neg (by rw [he]; decide), hc]
    rcases hw with rfl | rfl <;> rfl
  · rw [contentOf, if_pos he, hp, hc]
    rcases hw with rfl | rfl <;> simp [contentChanges, sameSource, Content.isTitle]

/-- A content that does not change leaves the state as it is (R91). -/
theorem recompose_same {n : Fin 8} {why : Arrived} {s : State}
    (h : contentChanges s.channels[n].content (contentOf s n) why = false) : recompose n why s = s := by
  unfold recompose
  exact if_neg (by rw [h]; decide)

/-- A caption written on a transmitting port D stands in its slot, in place of an unsent one, which is counted (R154). -/
theorem putCaption_busy {c : Caption} {n : Fin 8} {s : State} (hn : c.channel = n) (h : s.link.sendingD.isSome = true) :
    (putCaption c s).link.slots = s.link.slots.set n (some c) ∧
      (s.link.slots[n] = none → (putCaption c s).link.coalesced = s.link.coalesced) ∧
      (∀ x, s.link.slots[n] = some x →
        (putCaption c s).link.coalesced.toNat = min 65535 (s.link.coalesced.toNat + 1)) := by
  subst hn
  unfold putCaption
  rw [chooseD_busy _ (by simpa using h)]
  refine ⟨rfl, fun h0 => ?_, fun x hx => ?_⟩
  · simp only [State.withLink, h0]; rfl
  · simp only [State.withLink, hx, Option.isSome_some, if_true]
    split <;> bv_omega

/-- A caption carries the channel it was written for (R92). -/
@[simp] theorem captionOf_channel (dest : Byte) (n : Fin 8) (number : Byte) (lines : Nat) (content : Content) :
    (captionOf dest n number lines content).channel = n := by cases content <;> rfl

/-- What writing the stored content does to the slot of a transmitting port D (R91, R154). -/
theorem writeCaption_busy {n : Fin 8} {s : State} (h : s.link.sendingD.isSome = true) (k : ChannelConfig) (c : Channel)
    (hk : s.config.channels[n] = k) (hc : s.channels[n] = c) :
    (writeCaption n s).link.slots =
        s.link.slots.set n (some (captionOf k.address n (c.number + 1) k.lines c.content)) ∧
      (s.link.slots[n] = none → (writeCaption n s).link.coalesced = s.link.coalesced) ∧
      (∀ x, s.link.slots[n] = some x →
        (writeCaption n s).link.coalesced.toNat = min 65535 (s.link.coalesced.toNat + 1)) := by
  subst hk hc
  exact putCaption_busy (s := s.withChannel n { s.channels[n] with number := s.channels[n].number + 1 })
    (captionOf_channel _ _ _ _ _) h

/-- A content that changes is stored, and written unless the channel is muted or under a test (R91, R93, R94, R154). -/
theorem recompose_written {n : Fin 8} {why : Arrived} {s : State} (he : s.config.channels[n].enabled = true)
    (h : contentChanges s.channels[n].content (contentOf s n) why = true) :
    Written n (contentOf s n) s (recompose n why s) := by
  by_cases hq : (s.config.channels[n].muted || withheld s n || !s.config.channels[n].enabled) = true
  · have hr : recompose n why s = s.withChannel n { s.channels[n] with content := contentOf s n } := by
      unfold recompose
      rw [if_pos h]
      exact if_pos hq
    rw [hr]
    refine ⟨by simp [State.withChannel], fun _ => ⟨by simp [State.withChannel], .refl s⟩, fun h1 h2 => ?_⟩
    simp only [h1, h2, he] at hq
    exact absurd hq (by decide)
  · have hr : recompose n why s = writeCaption n (s.withChannel n { s.channels[n] with content := contentOf s n }) := by
      unfold recompose
      rw [if_pos h]
      exact if_neg hq
    rw [hr]
    have hd := fun c u => (putCaption_only c u).channels
    refine ⟨?_, fun h1 => ?_, fun _ _ => ⟨?_, fun hb => ?_⟩⟩
    · unfold writeCaption
      rw [hd]
      simp [State.withChannel]
    · rcases h1 with h1 | h1 <;> simp [-Fin.getElem_fin, h1] at hq
    · unfold writeCaption
      rw [hd]
      simp [State.withChannel]
    · exact writeCaption_busy (s := s.withChannel n { s.channels[n] with content := contentOf s n }) hb s.config.channels[n]
        { s.channels[n] with content := contentOf s n } rfl (by simp [State.withChannel])

/-- A counter after several increments, saturating at 255 (R170). -/
theorem countTimes_counter (name : CounterName) (k : Nat) (s : State) :
    (countTimes name k s).counters[name.index].toNat = min 255 (s.counters[name.index].toNat + k) := by
  induction k generalizing s with
  | zero => simp only [countTimes]; omega
  | succ k ih =>
    have hc : (count name s).counters[name.index] = bumped s.counters[name.index] := by
      unfold count
      simp only []
      split <;> simp [State.withCounters, State.withManagement]
    rw [countTimes, ih, hc, bumped]
    split <;> bv_omega

end Sys2Proof.Machine
end

