-- ==== Sys2Proof/Laws/Cells.lean ====
section
/-! SUPPORT. The bytes of the cue store: what a byte reads as after each operation on the cells, and that each keeps
their one form (R112, R119, R120, R131). -/

namespace Sys2Proof.Machine

/-! ### Reading after writing -/

/-- A byte given a value reads as that value, and every other byte as before. -/
theorem Cells.get?_put (cells : Cells) (a x : Nat) (b : Byte) :
    (cells.put a b).get? x = if x = a then some b else cells.get? x := by
  induction cells with
  | nil =>
    by_cases h : a = x
    · simp [Cells.put, Cells.get?, h]
    · simp [Cells.put, Cells.get?, h, Ne.symm h]
  | cons c rest ih =>
    simp only [Cells.put]
    split
    · by_cases h : a = x
      · simp [Cells.get?, h]
      · simp [Cells.get?, h, Ne.symm h]
    · split
      · next h =>
        subst h
        by_cases h : c.1 = x
        · simp [Cells.get?, h]
        · simp [Cells.get?, h, Ne.symm h]
      · next h₁ h₂ =>
        simp only [Cells.get?]
        split
        · next h => subst h; simp [Ne.symm h₂]
        · exact ih

/-- The bytes programmed read as their values, and every other byte as before (R119). -/
theorem Cells.get?_program (data : List Byte) (cells : Cells) (a x : Nat) :
    (cells.program a data).get? x =
      if a ≤ x ∧ x < a + data.length then data[x - a]? else cells.get? x := by
  induction data generalizing cells a with
  | nil =>
    rw [Cells.program, if_neg]
    simp
  | cons b rest ih =>
    rw [Cells.program, ih, Cells.get?_put]
    by_cases h : x = a
    · subst h; simp
    · by_cases h₁ : a + 1 ≤ x
      · have e : x - a = (x - (a + 1)) + 1 := by omega
        have h₂ : (a + 1 ≤ x ∧ x < a + 1 + rest.length) ↔ (a ≤ x ∧ x < a + (b :: rest).length) := by
          rw [List.length_cons]; omega
        simp only [h₂, h, if_false, e, List.getElem?_cons_succ]
      · rw [if_neg (by omega), if_neg h, if_neg (by omega)]

/-- A program that power cut short leaves each byte as it was or at its new value (R131). -/
theorem Cells.get?_programSome (data : List Byte) (reached : List Nat) (cells : Cells) (a x : Nat) :
    (cells.programSome a data reached).get? x =
      if (a ≤ x ∧ x < a + data.length) ∧ reached.contains x then data[x - a]? else cells.get? x := by
  induction data generalizing cells a with
  | nil =>
    rw [Cells.programSome, if_neg]
    rintro ⟨h, -⟩
    rw [List.length_nil] at h
    omega
  | cons b rest ih =>
    rw [Cells.programSome, ih]
    by_cases h : x = a
    · subst h
      rw [if_neg (by omega)]
      by_cases hr : reached.contains x = true
      · simp only [hr, if_true, Cells.get?_put]; simp
      · simp only [hr, and_false, if_false, Bool.false_eq_true]
    · have hput : (if reached.contains a = true then cells.put a b else cells).get? x = cells.get? x := by
        split
        · simp [Cells.get?_put, h]
        · rfl
      rw [hput]
      by_cases h₁ : a + 1 ≤ x
      · have e : x - a = (x - (a + 1)) + 1 := by omega
        have h₂ : (a + 1 ≤ x ∧ x < a + 1 + rest.length) ↔ (a ≤ x ∧ x < a + (b :: rest).length) := by
          rw [List.length_cons]; omega
        simp only [h₂, e, List.getElem?_cons_succ]
      · rw [if_neg (by omega), if_neg (by omega)]

/-- Cells kept by a condition on their address read as before where it holds and as ERASED elsewhere. -/
theorem Cells.get?_filter (p : Nat → Bool) (cells : Cells) (x : Nat) :
    Cells.get? (cells.filter (fun c => p c.1)) x = if p x then cells.get? x else none := by
  induction cells with
  | nil => simp [Cells.get?]
  | cons c rest ih =>
    by_cases hp : p c.1 = true
    · rw [List.filter_cons_of_pos (by simpa using hp)]
      by_cases hx : c.1 = x
      · subst hx; simp [Cells.get?, hp]
      · simp [Cells.get?, hx, ih]
    · rw [List.filter_cons_of_neg (by simpa using hp), ih]
      by_cases hx : c.1 = x
      · subst hx; simp [hp]
      · simp [Cells.get?, hx]

/-- A sector erased reads as ERASED, and every other byte as before (R120). -/
theorem Cells.get?_eraseSector (cells : Cells) (sector x : Nat) :
    (cells.eraseSector sector).get? x = if x / 4096 = sector then none else cells.get? x := by
  rw [Cells.eraseSector, Cells.get?_filter (fun a => decide (a / 4096 ≠ sector))]
  by_cases h : x / 4096 = sector <;> simp [h]

/-- An erase that power cut short leaves each byte of its sector as it was or ERASED (R131). -/
theorem Cells.get?_eraseSome (cells : Cells) (sector : Nat) (reached : List Nat) (x : Nat) :
    (cells.eraseSome sector reached).get? x =
      if x / 4096 = sector ∧ reached.contains x then none else cells.get? x := by
  rw [Cells.eraseSome, Cells.get?_filter (fun a => decide (a / 4096 ≠ sector) || !reached.contains a)]
  by_cases h : x / 4096 = sector <;> simp [h]

/-! ### The one form -/

/-- The form spelled out: addresses strictly rising, every one inside the store. -/
theorem Cells.wf_iff (cells : Cells) :
    cells.wf = true ↔ cells.Pairwise (fun c d => c.1 < d.1) ∧ ∀ c ∈ cells, c.1 < Config.storeSize := by
  induction cells with
  | nil => simp [Cells.wf]
  | cons c rest ih =>
    cases rest with
    | nil => simp [Cells.wf]
    | cons d rest =>
      simp only [Cells.wf, Bool.and_eq_true, decide_eq_true_eq, ih, List.pairwise_cons, List.mem_cons,
        forall_eq_or_imp]
      constructor
      · rintro ⟨hcd, ⟨hd, hp⟩, hs, hr⟩
        exact ⟨⟨⟨hcd, fun e he => lt_trans hcd (hd e he)⟩, hd, hp⟩, lt_trans hcd hs, hs, hr⟩
      · rintro ⟨⟨⟨hcd, -⟩, hd, hp⟩, -, hs, hr⟩
        exact ⟨hcd, ⟨hd, hp⟩, hs, hr⟩

/-- The cells after one byte is given a value: that byte, and others that were there. -/
theorem Cells.mem_put (cells : Cells) (a : Nat) (b : Byte) (c : Host.Cell) (h : c ∈ cells.put a b) :
    c = (a, b) ∨ c ∈ cells := by
  induction cells with
  | nil => simpa [Cells.put] using h
  | cons d rest ih =>
    simp only [Cells.put] at h
    split at h
    · simpa using h
    · split at h
      · rcases List.mem_cons.1 h with h | h
        · exact .inl h
        · exact .inr (List.mem_cons_of_mem _ h)
      · rcases List.mem_cons.1 h with h | h
        · exact .inr (h ▸ List.mem_cons_self)
        · exact (ih h).imp_right (List.mem_cons_of_mem _)

/-- Giving a value to a byte of the store keeps the form. -/
theorem Cells.put_wf (cells : Cells) (a : Nat) (b : Byte) (ha : a < Config.storeSize) (h : cells.wf = true) :
    (cells.put a b).wf = true := by
  rw [Cells.wf_iff] at h ⊢
  obtain ⟨hp, hs⟩ := h
  refine ⟨?_, fun c hc => ?_⟩
  · induction cells with
    | nil => simp [Cells.put]
    | cons d rest ih =>
      have hd := (List.pairwise_cons.1 hp).1
      have hr := (List.pairwise_cons.1 hp).2
      simp only [Cells.put]
      split
      · next hlt =>
        exact List.pairwise_cons.2 ⟨fun e he => (List.mem_cons.1 he).elim (fun q => q ▸ hlt)
          (fun q => lt_trans hlt (hd e q)), hp⟩
      · split
        · next heq => exact List.pairwise_cons.2 ⟨fun e he => by simpa [heq] using hd e he, hr⟩
        · next h₁ h₂ =>
          refine List.pairwise_cons.2 ⟨fun e he => ?_, ih hr (fun c hc => hs c (List.mem_cons_of_mem _ hc))⟩
          rcases Cells.mem_put rest a b e he with rfl | he
          · exact lt_of_le_of_ne (not_lt.1 h₁) (Ne.symm h₂)
          · exact hd e he
  · rcases Cells.mem_put cells a b c hc with rfl | hc
    · exact ha
    · exact hs c hc

/-- A program inside the store keeps the form (R119). -/
theorem Cells.program_wf (data : List Byte) (cells : Cells) (a : Nat) (ha : a + data.length ≤ Config.storeSize)
    (h : cells.wf = true) : (cells.program a data).wf = true := by
  induction data generalizing cells a with
  | nil => exact h
  | cons b rest ih =>
    simp only [List.length_cons] at ha
    exact ih _ _ (by omega) (Cells.put_wf cells a b (by omega) h)

/-- A program that power cut short keeps the form (R131). -/
theorem Cells.programSome_wf (data : List Byte) (reached : List Nat) (cells : Cells) (a : Nat)
    (ha : a + data.length ≤ Config.storeSize) (h : cells.wf = true) :
    (cells.programSome a data reached).wf = true := by
  induction data generalizing cells a with
  | nil => exact h
  | cons b rest ih =>
    simp only [List.length_cons] at ha
    refine ih _ _ (by omega) ?_
    split
    · exact Cells.put_wf cells a b (by omega) h
    · exact h

/-- Taking cells away keeps the form. -/
theorem Cells.filter_wf (p : Host.Cell → Bool) (cells : Cells) (h : cells.wf = true) :
    Cells.wf (cells.filter p) = true := by
  rw [Cells.wf_iff] at h ⊢
  exact ⟨h.1.filter p, fun c hc => h.2 c (List.mem_of_mem_filter hc)⟩

/-- An erase keeps the form (R120). -/
theorem Cells.eraseSector_wf (cells : Cells) (sector : Nat) (h : cells.wf = true) :
    (cells.eraseSector sector).wf = true := Cells.filter_wf _ cells h

/-- An erase that power cut short keeps the form (R131). -/
theorem Cells.eraseSome_wf (cells : Cells) (sector : Nat) (reached : List Nat) (h : cells.wf = true) :
    (cells.eraseSome sector reached).wf = true := Cells.filter_wf _ cells h

/-- Equal readings of every byte make equal cells: the form is the only one. -/
theorem Cells.wf_ext (c d : Cells) (hc : c.wf = true) (hd : d.wf = true) (h : ∀ x, c.get? x = d.get? x) : c = d := by
  rw [Cells.wf_iff] at hc hd
  replace hc := hc.1
  replace hd := hd.1
  induction c generalizing d with
  | nil =>
    cases d with
    | nil => rfl
    | cons e rest => simpa [Cells.get?] using h e.1
  | cons a as ih =>
    have low : ∀ (l : Cells) (x : Nat), (∀ e ∈ l, x < e.1) → Cells.get? l x = none := by
      intro l x hl
      induction l with
      | nil => rfl
      | cons e rest ihl =>
        have hne : e.1 ≠ x := Nat.ne_of_gt (hl e List.mem_cons_self)
        rw [Cells.get?, if_neg hne]
        exact ihl (fun y hy => hl y (List.mem_cons_of_mem _ hy))
    cases d with
    | nil => simpa [Cells.get?] using h a.1
    | cons b bs =>
      have ha := List.pairwise_cons.1 hc
      have hb := List.pairwise_cons.1 hd
      have hkey : a.1 = b.1 := by
        rcases Nat.lt_trichotomy a.1 b.1 with hlt | heq | hlt
        · have h1 := h a.1
          rw [low (b :: bs) a.1 (by
            intro e he
            rcases List.mem_cons.1 he with rfl | he
            · exact hlt
            · exact lt_trans hlt (hb.1 e he))] at h1
          simp [Cells.get?] at h1
        · exact heq
        · have h1 := h b.1
          rw [low (a :: as) b.1 (by
            intro e he
            rcases List.mem_cons.1 he with rfl | he
            · exact hlt
            · exact lt_trans hlt (ha.1 e he))] at h1
          simp [Cells.get?] at h1
      have hval : a.2 = b.2 := by simpa [Cells.get?, hkey] using h a.1
      have hab : a = b := Prod.ext hkey hval
      subst hab
      congr 1
      refine ih bs (fun x => ?_) ha.2 hb.2
      by_cases hx : a.1 = x
      · subst hx; rw [low as a.1 ha.1, low bs a.1 hb.1]
      · simpa [Cells.get?, hx] using h x

/-- The reset store has the form. -/
theorem reset_cells_wf : State.reset.store.cells.wf = true := rfl

end Sys2Proof.Machine
end

