-- ==== Sys2Proof/Tests/Slice0.lean ====
section
/-! SUPPORT. Tests: an ill-formed command for each check, the manual's worked cases one step at a time, and for each
statement with hypotheses a state and operands that meet them. -/

namespace Sys2Proof.Tests

open Sys2Proof.Machine

/-! ### Helpers -/

/-- A moment with every unit sound. -/
def at_ (us : Nat) : Moment := ⟨BitVec.ofNat 48 us, [], 0⟩

/-- A moment at which a unit reads with two bits in error. -/
def failing (us unit : Nat) : Moment := ⟨BitVec.ofNat 48 us, [⟨unit, .manyBits 3⟩], 0⟩

/-- A moment by which the operation in flight has read on by some units. -/
def reading (us reads : Nat) : Moment := ⟨BitVec.ofNat 48 us, [], reads⟩

/-- What a command at 5 µs finds. -/
def sees (s : State) : State := atMoment (at_ 5) s

/-- A command at 5 µs takes its effect. -/
abbrev AwakeAt (s : State) : Prop := Awake (at_ 5) s (sees s)

/-- A request at 5 µs is taken at once. -/
abbrev ReadyAt (s : State) : Prop := Ready (at_ 5) s (sees s)

/-- A request's head with its confirm byte. -/
def head (confirm : Byte) : Head := ⟨0, 7, confirm⟩

/-- The state a command leads to. -/
def after (a : Answer) : State :=
  match a with
  | .next t => t
  | _ => State.reset

def f0 : Frame := ⟨225, 0, 0x20, 0, []⟩

/-- Port U transmitting. -/
def busyU (s : State) : State := s.withLink { s.link with sendingU := some f0 }

/-- Port D transmitting. -/
def busyD (s : State) : State := s.withLink { s.link with sendingD := some ⟨f0, none⟩ }

/-- A state with the show in a given state. -/
def showing (show_ : ShowState) : State := setShow show_ State.reset

/-- A state with an operation in flight. -/
def inFlight (op : StoreOp) : State := State.reset.withStore { State.reset.store with flight := some ⟨op, 9⟩ }

def cue (number : Nat) (trigger : Trigger) (mark lead : Nat) : Cue := ⟨⟨BitVec.ofNat 16 number, 0⟩, trigger, mark, lead, []⟩

/-- The nine cues of the manual's scene (chapter Firing Cues). -/
def scene : List Cue :=
  [cue 10 .manual 0 0, cue 11 .mark 1920 200, cue 12 (.count 2) 1920 0, cue 13 (.follow 3000) 2400 0, cue 14 .manual 3840 500,
   cue 15 .mark 4320 500, cue 16 .mark 4560 500, cue 17 .mark 4800 0, cue 18 .manual 6720 0]

/-- The scene loaded, the show in a given state, the firing unit and tracker as given. -/
def onStage (show_ : ShowState) (f : Firing) (k : Tracker) : State :=
  ((((showing show_).withTable
    { cues := scene, langs := [1], beat := some 1000000, map := Vector.replicate 6 .none }).withFiring f).withTracker k)

/-- A tracker LOCKED at an anchor which is also its base. -/
def locked (beat position time : Nat) : Tracker :=
  { Tracker.initial with
    follow := .locked, beat := beat, anchorPos := position, basePos := position, anchorTime := BitVec.ofNat 48 time,
    baseTime := BitVec.ofNat 48 time }

def report (position time : Nat) : Report := ⟨position, false, false, 0, BitVec.ofNat 48 time⟩

/-- Default configuration with channel 0 enabled. -/
def oneChannel : Configuration :=
  let c := Configuration.initial
  { c with channels := c.channels.set 0 { c.channels[0] with enabled := true } }

def item (number chars : Nat) : Item :=
  ⟨0, ⟨BitVec.ofNat 16 number, 0⟩, .title, 0, some ⟨List.replicate chars 0x41, chars, 1⟩, 0, false, false⟩

/-- A state in RUN with channel 0 enabled and as given. -/
def withZero (c : Channel) : State := ((showing .run).withConfig oneChannel).withChannel 0 c

/-- A channel with a composed content. -/
def composed (content : Content) : Channel := { Channel.initial with content := content }

/-- A state with channel 0 as given beneath a level-3 message. -/
def beneath (c : Channel) : State := (withZero c).withPlacements [⟨7, .alert, [], 1, 0, none, 1⟩]

/-- A screen test's record on channel 0. -/
def record0 : TestRecord :=
  ⟨7, 0, 3, 4, 10, .single, 1, 0, 0, 0, 0, 0, none, none⟩

def testing (r : TestRecord) : State := State.reset.withTools { Tools.initial with running := .test r }

def censusing (list : List CensusEntry) : State := State.reset.withTools ⟨.census 7 5, 1, list, false, .none⟩

/-- A smallest act: one language, one MANUAL cue with no text; 51 bytes at sector 1, its entry for act 1. -/
def image : List Byte :=
  [1, 0x65, 0x6e, 0x67] ++ List.replicate 15 0 ++ be 2 1 ++ be 3 1000000 ++ be 4 36 ++ be 4 51 ++ be 4 0 ++
    ([0, 1, 0, 0] ++ List.replicate 11 0)

def entry : List Byte := [0xA5] ++ be 2 1 ++ be 2 1 ++ be 4 51 ++ be 2 1 ++ be 4 (crc32 image).toNat

def storeWithAct : Cells := Cells.program (Cells.program [] 0 entry) 4096 image

/-- The smallest act stored, with an operation in flight. -/
def withAct (op : Option StoreOp) : State :=
  State.reset.withStore { Store.initial storeWithAct 0 with flight := op.map (fun o => ⟨o, 9⟩) }

/-! ### Commands refused as ill-formed -/

theorem test_wf_badFrame_good : Instr.wf 224 (.badFrame (at_ 0) .u f0.bytes) = false := by decide +kernel
theorem test_wf_pos_other : Instr.wf 224 (.pos (at_ 0) 225 0 0 []) = false := by decide
theorem test_wf_pos_long : Instr.wf 224 (.pos (at_ 0) 224 0 0 (List.replicate 241 0)) = false := by decide +kernel
theorem test_wf_go_other : Instr.wf 224 (.go (at_ 0) 225 0 0 []) = false := by decide
theorem test_wf_go_long : Instr.wf 224 (.go (at_ 0) 255 0 0 (List.replicate 241 0)) = false := by decide +kernel
theorem test_wf_req_broadcast : Instr.wf 224 (.req (at_ 0) 255 0 0 []) = false := by decide
theorem test_wf_req_long : Instr.wf 224 (.req (at_ 0) 224 0 0 (List.replicate 241 0)) = false := by decide +kernel
theorem test_wf_foreign_other : Instr.wf 224 (.foreignKindFrame (at_ 0) .u 225 0 0x12 0 []) = false := by decide
theorem test_wf_foreign_taken : Instr.wf 224 (.foreignKindFrame (at_ 0) .d 224 0 0x32 0 []) = false := by decide
theorem test_wf_foreign_long : Instr.wf 224 (.foreignKindFrame (at_ 0) .d 224 0 0x10 0 (List.replicate 241 0)) = false := by
  decide +kernel
theorem test_wf_down_own : Instr.wf 224 (.forwardDown (at_ 0) 224 0 0x20 0 []) = false := by decide
theorem test_wf_down_broadcast : Instr.wf 224 (.forwardDown (at_ 0) 255 0 0x10 0 []) = false := by decide
theorem test_wf_down_long : Instr.wf 224 (.forwardDown (at_ 0) 1 0 0x10 0 (List.replicate 241 0)) = false := by decide +kernel
theorem test_wf_up_own : Instr.wf 224 (.forwardUp (at_ 0) 224 0 0x20 0 []) = false := by decide
theorem test_wf_up_long : Instr.wf 224 (.forwardUp (at_ 0) 0 0 0x20 0 (List.replicate 241 0)) = false := by decide +kernel
theorem test_wf_answer_other : Instr.wf 224 (.answer (at_ 0) 0 0 0 []) = false := by decide
theorem test_wf_answer_long : Instr.wf 224 (.answer (at_ 0) 224 0 0 (List.replicate 241 0)) = false := by decide +kernel
theorem test_wf_echo_other : Instr.wf 224 (.testEcho (at_ 0) 0 0 0 []) = false := by decide
theorem test_wf_echo_long : Instr.wf 224 (.testEcho (at_ 0) 224 0 0 (List.replicate 241 0)) = false := by decide +kernel
theorem test_wf_invalid_decodes : Instr.wf 224 (.invalidRequest (at_ 0) 0 [1, 0, 0]) = false := by decide
theorem test_wf_invalid_long : Instr.wf 224 (.invalidRequest (at_ 0) 0 (List.replicate 241 0)) = false := by decide +kernel
theorem test_wf_setConfig_size : Instr.wf 224 (.setConfig (at_ 0) (head 0) [⟨0x1001, [0, 1]⟩]) = false := by decide
theorem test_wf_setConfig_item : Instr.wf 224 (.setConfig (at_ 0) (head 0) [⟨0x1006, [1]⟩]) = false := by decide
theorem test_wf_program_long : Instr.wf 224 (.programStore (at_ 0) (head 0) 0 (List.replicate 234 0)) = false := by decide +kernel
theorem test_wf_program_fits : Instr.wf 224 (.programStore (at_ 0) (head 0) 0 (List.replicate 233 0)) = true := by decide +kernel
theorem test_wf_go_broadcast : Instr.wf 224 (.go (at_ 0) 255 0 0 [0, 0, 0, 0]) = true := by decide

/-! ### Layouts and check codes (chapter Frame and Record Layouts) -/

/-- The check values R188 gives for the nine digits. -/
theorem test_crc16_digits : crc16 [0x31, 0x32, 0x33, 0x34, 0x35, 0x36, 0x37, 0x38, 0x39] = 0x29B1 := by decide +kernel
theorem test_crc32_digits : crc32 [0x31, 0x32, 0x33, 0x34, 0x35, 0x36, 0x37, 0x38, 0x39] = 0xCBF43926 := by decide +kernel
theorem test_frame_header : (Frame.bytes ⟨224, 0, 0x20, 5, [1, 7, 0]⟩).take 8 = [224, 0, 0x20, 5, 3, 1, 7, 0] := by decide
theorem test_setPointer_decodes : decodeRequest [0x16, 7, 0, 0, 12, 0x41] = some (.setPointer ⟨12, 0x41⟩) := by decide
theorem test_short_request_invalid : decodeRequest [0x16, 7, 0, 0, 12] = none := by decide

/-- lf is one optional item: its presence byte, then index and label (R184, log 19). -/
theorem test_last_fired_bytes :
    let n := fun last => (Notice.goIgnored .atEnd ⟨0, 0⟩ false .run ⟨5, none⟩ last 0).contents.drop 6
    ((n none).take 4, (n (some ⟨4, some ⟨14, 0x41⟩⟩)).take 9) = ([0, 5, 0, 0], [0, 5, 0, 1, 0, 4, 0, 14, 0x41]) := by decide

/-! ### Following the score -/

/-- Worked tempo cases: a smoothed sample, truncation toward zero, the clamp after the window. -/
theorem test_tempo_smoothed :
    ((takeSample Configuration.initial.engine (locked 1000000 9600 120000000) (report 10080 120900000)).1.beat, smoothed 1000003 1000000 4,
      smoothed 1000003 1000006 4, smoothed 2800000 (clampSample 3400000) 4) = (975000, 1000003, 1000003, 2850000) := by decide

/-- Worked projection case: two projections, the arrival at 11,040 and none at 12,001. -/
theorem test_projection :
    ((locked 975000 10080 120900000).projected 4 121875000, (locked 975000 10080 120900000).projected 4 123000000,
      (locked 975000 10080 120900000).arrival 4 11040, (locked 975000 10080 120900000).arrival 4 12001) =
      (10560, 11113, .reachedAt 122850000, .noTime) := by decide

/-- Worked loss and relock: the report of the third rejection, and the relock after it. -/
theorem test_rate_loss :
    ((takeReport Configuration.initial.engine { locked 1000000 49440 202000000 with anySeq := false, lastSeq := 23, rejects := 2 }
      ⟨49920, false, false, 24, 202500000⟩).tracker.follow,
     (takeReport Configuration.initial.engine
      { locked 1000000 49920 202500000 with follow := .lost, anySeq := false, lastSeq := 24, candidate := true }
      ⟨50400, false, false, 25, 203000000⟩).tracker.beat) = (.lost, 500000) := by decide

/-- Worked fermata case: the release at the held position takes no sample. -/
theorem test_fermata_release :
    let out := takeReport Configuration.initial.engine { locked 799500 20160 300400000 with follow := .held, anySeq := false, lastSeq := 22 }
      ⟨20160, false, false, 23, 308400000⟩
    (out.tracker.follow, out.tracker.beat, out.tracker.anchorTime) = (.locked, 799500, 308400000) := by decide

/-! ### Firing cues -/

/-- Worked scene: the watch expiry fires 15 and overruns 14. -/
theorem test_overrun :
    let s := onStage .run ⟨4, some 3, some 18500000, .none, some ⟨5, some 19000000⟩⟩ (locked 1000000 3840 18500000)
    let t := after (execWatchDeadlineExpiry (at_ 19000000) s)
    (t.firing.pointer, t.firing.last, t.firing.trigger, t.counters[9]) = (6, some 5, .mark 19500000, 1) := by decide

/-- Worked scene: the late GO for label 14 changes no state of the firing unit. -/
theorem test_late_go :
    let s := onStage .run ⟨6, some 5, some 19000000, .mark 19500000, none⟩ (locked 1000000 3840 18500000)
    let t := after (execGo (at_ 19200000) 224 0 0 [0, 14, 0, 0] s)
    (t.firing, t.counters[8]) = (s.firing, 1) := by decide

/-- Worked re-seek cases: jumps to 2000 in RUN and in HOLD. -/
theorem test_reseek :
    let t := fun sh => (after (execPos (at_ 30000000) 224 0 0 [0, 0x07, 0xD0, 2]
      (onStage sh ⟨8, some 7, some 5, .none, none⟩ (locked 1000000 4800 19300000)))).firing
    ((t .run).last, (t .run).pointer, (t .hold).last, (t .hold).pointer) = (some 2, 3, none, 3) := by decide

/-! ### Channels -/

/-- Worked reading-time cases: 38 characters, alone and with titles behind. -/
theorem test_reading_time :
    (minimumReading LanguageConfig.initial 38, caughtUp LanguageConfig.initial 3080, minimumReading LanguageConfig.initial 120,
      caughtUp { LanguageConfig.initial with catchUp := 35 } 3650) = (3080, 1848, 7000, 1278) := by decide

/-- Worked busy passage: the reading expiry at 2848 opens a gap before the next title. -/
theorem test_gap_opens :
    let s := withZero { Channel.initial with
      layer := .showing, current := some (item 21 38), queue := [item 22 50], shown := some ⟨1000000, 3080⟩,
      reading := some 2848000, content := .title ⟨21, 0⟩ [] 1 }
    let c := (after (execReadingDeadlineExpiry (at_ 2848000) 0 s)).channels[(0 : Fin 8)]
    (c.layer, c.next.map (·.label.number), c.gap, c.number) = (.gap, some 22, some 2998000, 1) := by decide

/-! ### Messages, store, link, management, tools -/

/-- Worked message example: 900 s is clamped to 600. -/
theorem test_message_clamped : expiryOf 120000000 900 = some 720000000 := by decide

/-- Worked store example: a run across a page is refused, one that fills its page is taken. -/
theorem test_page : (runInPage 819400 100, runInPage 819200 224) = (false, true) := by decide

/-- Worked port D example: after channel 2 the alert of channel 3 is chosen before that of channel 0. -/
theorem test_alert_order :
    let cap := fun n => some (captionOf 1 n 1 2 (.message .alert [0x41] 1))
    let l := { Link.initial 224 with slots := ((Vector.replicate 8 none).set 0 (cap 0)).set 3 (cap 3), dLast := 2 }
    (pickCaption l).map (·.1) = some 3 := by decide

/-- Worked configuration example: LOAD_ACT from power-up is refused with NOT_VALID. -/
theorem test_load_not_valid :
    (after (execLoadAct (at_ 200) (head 0) 1 (busyU State.reset))).link.response = some ⟨0, 0x10, 7, .notValid, []⟩ := by decide

/-- Worked echo example (R179): after echoes 0 and 1, echo 3 is GOOD with one missed. -/
theorem test_echo_missed :
    let s := testing { record0 with count := 5, sent := 5, expected := 2, good := 2 }
    let t := after (execTestEcho (at_ 1) 224 1 0 (be 2 3 ++ testBytes 3 4) s)
    t.tools.running = .test { record0 with count := 5, sent := 5, expected := 4, good := 3, missed := 1, errors := 1 } := by decide +kernel

/-- The smallest act loads. -/
theorem test_load_success :
    let t := after (execLoadComplete (at_ 5) (withAct (some (.load 1))))
    (t.control, t.table.cues.length, t.store.region) = (⟨.preset, some 1, false⟩, 1, some ⟨1, 1⟩) := by decide +kernel

/-- The load of the smallest act reads its entry, and its region is then protected (R126, R129); a queued read goes
before the next unit (R114). -/
theorem test_load_region :
    let t := after (execReadStatus (reading 5 1) (head 0) (withAct (some (.load 1))))
    let w := (withAct (some (.verify 1))).withStore { (withAct (some (.verify 1))).store with queue := [.staging] }
    (t.store.region, t.store.reads, (after (execVerifyComplete (reading 5 9) w)).store.flight.isSome) =
      (some ⟨1, 1⟩, 1, true) := by decide +kernel

/-- The COUNTER_HALF of a READ_STORE's unit is offered before its response is placed and the next request taken (R163,
R170). -/
theorem test_half_before_next_request :
    let s := (State.reset.withCounters (State.reset.counters.set 13 127)).withStore
      { State.reset.store with cells := [(16, 1)], queue := [.readStore 16 1] }
    let s1 := s.withManagement { s.management with handling := some ⟨0, 0x30, 7⟩, fifo := [⟨0, [2, 8, 0]⟩] }
    let t := after (execReadStoreServed (failing 5 1) s1)
    (t.management.handling, t.link.sendingU.map (·.kind), t.link.response.map (·.code), t.management.fifo.length) =
      (none, some kindNote, some 0x30, 1) := by decide +kernel

/-- R112, R116: in a failing unit a programmed byte is returned with its wrong bits, an ERASED byte as 0xFF. -/
theorem test_read_store_failing_unit :
    readStoreData { Store.initial [(15, 7), (16, 1)] 0 with faults := [⟨1, .manyBits 3⟩] } 15 3 =
      [3, 7, 2, 0xFF, 1, 1, 0, 0, 0, 16] := by decide

/-- R118: both CRC-32 values of a VERIFY that compares stand under one presence byte, then no address. -/
theorem test_verify_data : verifyData 1 (some (0xCBF43926, 2)) none = [1, 1, 0xCB, 0xF4, 0x39, 0x26, 0, 0, 0, 2, 0] := by
  decide

/-- R91, R154: the title that a passed gap deadline shows is written with the next number, in place of an unsent caption,
which is counted. -/
theorem test_gap_caption :
    let c : Channel := { Channel.initial with layer := .gap, next := some (item 22 2), gap := some 5, content := .blank, number := 255 }
    let s := busyD (withZero c)
    let t := after (execGapDeadlineExpiry (at_ 5) 0
      (s.withLink { s.link with slots := s.link.slots.set 0 (some (captionOf 1 0 255 2 .blank)) }))
    (t.link.slots[(0 : Fin 8)]).map (fun x => (x.number, x.label, x.bytes)) = some (0, some ⟨22, 0⟩, [0x41, 0x41]) ∧
      t.link.coalesced = 1 := by decide +kernel

/-- R178, R180: the end of the last of three test frames arms the completion deadline. -/
theorem test_last_frame_sent :
    let s := testing { record0 with sent := 3 }
    let t := after (execDTransmissionComplete (at_ 5)
      (s.withLink { s.link with sendingD := some ⟨f0, some (.test 0 2 4 true)⟩ }))
    t.tools.running = .test { record0 with sent := 3, endDeadline := some 100005 } := by decide +kernel

/-- R55: while the settle flag is set a loss-causing report leaves the COUNT counter as it is. -/
theorem test_settled_count :
    let k := { locked 1000000 1920 0 with anySeq := false, lastSeq := 0, settle := true }
    let f := fun k => (after (execPos (at_ 5) 224 0 9 [0, 0x0F, 0x00, 0] (onStage .run ⟨2, some 1, some 0, .count 9, none⟩ k))).firing
    ((f k).trigger, (f { k with settle := false }).trigger) = (.count 9, .count 5) := by decide

/-! ### Witnesses: for each statement with hypotheses, a state and operands that meet them -/

theorem awake_reset : AwakeAt State.reset := ⟨rfl, rfl⟩

theorem ready_reset : ReadyAt State.reset := ⟨⟨rfl, rfl⟩, rfl, rfl, rfl, rfl⟩

/-- A show state other than at reset is as ready. -/
theorem ready_showing (show_ : ShowState) : ReadyAt (showing show_) := ⟨⟨rfl, rfl⟩, rfl, rfl, rfl, rfl⟩

theorem witness_StepRunsTheFrontCommand :
    (State.reset.withPending [.restartTakesEffect]).pending = .restartTakesEffect :: [] := rfl

theorem witness_IdleStepCountsOneMicrosecond :
    State.reset.pending = [] ∧ State.reset.powered = true ∧ (State.reset.withPowered false).pending = [] ∧
      (State.reset.withPowered false).powered = false := ⟨rfl, rfl, rfl, rfl⟩

theorem witness_WithoutPowerNothingHappens :
    (State.reset.withPowered false).powered = false ∧ ∀ straps cut, Instr.restartTakesEffect ≠ .powerUp straps cut :=
  ⟨rfl, fun _ _ h => by cases h⟩

theorem witness_InterruptedOperationLeavesOldOrNew :
    State.reset.powered = true ∧ (inFlight (.program 0 [1])).store.flight = some ⟨.program 0 [1], 9⟩ ∧
      (inFlight (.erase 511)).store.flight = some ⟨.erase 511, 9⟩ ∧ State.reset.store.flight = none ∧
      (inFlight (.protect 8)).store.flight = some ⟨.protect 8, 9⟩ ∧
      (inFlight (.unprotect 1)).store.flight = some ⟨.unprotect 1, 9⟩ ∧ (inFlight (.erase 0)).store.updating = false :=
  ⟨rfl, rfl, rfl, rfl, rfl, rfl, rfl⟩

theorem witness_RequestsDecodeAsEncoded :
    requestFits (head 0) (.programStore 0 (List.replicate 233 0)) = true ∧
      requestFits (head 0) (.setConfig [⟨0x1001, [1]⟩, ⟨0x2001, [0x65, 0x6e, 0x67]⟩]) = true := by decide +kernel

theorem witness_BadAndForeignFramesAreCounted :
    AwakeAt State.reset ∧ parseFrame [1, 2, 3] = none ∧ State.reset.link.address = 224 ∧ portTakes .u 0x12 = false ∧
      portTakes .d 0x20 = false ∧ payloadFits (List.replicate 240 0) = true :=
  ⟨awake_reset, by decide, by decide, by decide, by decide, by decide +kernel⟩

/-- Idle ports, and ports busy with seven and with eight frames waiting. -/
theorem witness_ForwardedFramesJoinTheirFifo :
    goesDown 255 0x20 224 = true ∧ payloadFits [] = true ∧ (0 : Byte) ≠ State.reset.link.address ∧
      (State.reset.link.sendingD = none ∧ (∀ n : Fin 8, State.reset.link.slots[n] = none) ∧ State.reset.link.tool = none ∧
        State.reset.link.downFifo = [] ∧ State.reset.link.sendingU = none ∧ State.reset.link.response = none ∧
        State.reset.management.notices = [] ∧ State.reset.link.upFifo = []) ∧
      (∀ k, k = 7 ∨ k = 8 →
        let s₀ := busyU (busyD (State.reset.withLink { State.reset.link with
          downFifo := List.replicate k f0, upFifo := List.replicate k f0 }))
        let s := sees s₀
        AwakeAt s₀ ∧ s.link.downFifo.length = k ∧ s.link.upFifo.length = k ∧ s.link.sendingD.isSome = true ∧
          s.link.sendingU.isSome = true) := by
  refine ⟨by decide, by decide, by decide, by decide, ?_⟩
  rintro k (rfl | rfl) <;> exact ⟨⟨rfl, rfl⟩, rfl, rfl, rfl, rfl⟩

/-- Samples at the ends of the device range and past them, with RATE disabled; and one that is rejected. -/
theorem witness_SmoothedBeatFollowsTheFormula :
    let k := locked 1000000 0 0
    let off := { Configuration.initial.engine with onRate := false }
    beatSound k.beat ∧ 1 ≤ off.smoothing ∧ off.smoothing ≤ 16 ∧ (takeSample off k (report 480 150000)).2 = false ∧
      rawSample k (report 480 150000) = 150000 ∧ rawSample k (report 480 3000000) = 3000000 ∧
      rawSample k (report 480 149999) = 149999 ∧ rawSample k (report 480 3000001) = 3000001 ∧
      (takeSample Configuration.initial.engine k (report 480 500000)).2 = true := by
  refine ⟨⟨by decide, by decide⟩, by decide⟩

theorem witness_ProjectionStaysBelowTheHorizon :
    (locked 1000000 16777215 0).follow = .locked ∧ Tracker.initial.follow = .idle ∧
      (locked 1000000 16777215 0).anchorPos ≤ 16777215 := by decide

/-- The anchor, the horizon and one past it; HELD at and past the anchor; the settle flag. -/
theorem witness_ArrivalIsWhenTheProjectionReaches :
    let k := locked 1000000 480 0
    k.settle = false ∧ ({ k with settle := true } : Tracker).settle = true ∧ k.follow = .locked ∧ 480 ≤ k.anchorPos ∧
      k.anchorPos < 481 ∧ 2400 ≤ k.anchorPos + 480 * 4 ∧ k.anchorPos + 480 * 4 < 2401 ∧
      ({ k with follow := .held } : Tracker).follow = .held ∧ Tracker.initial.follow = .idle ∧ 0 < k.beat := by decide

theorem witness_ReportsReachTheTracker :
    AwakeAt (showing .preset) ∧ AwakeAt State.reset ∧ payloadFits [0, 0, 0, 0] = true ∧ (showing .preset).control.show_ ≠ .dark ∧
      State.reset.control.show_ = .dark := ⟨⟨rfl, rfl⟩, awake_reset, by decide, by decide, rfl⟩

/-- Differences 0, 4, 5 and 128 of sequence numbers at a gap limit of 4; each follow state; positions at the anchor, one
short of 120 ticks from the sample base and at 120; raw samples at the bounds; a second and a third rejection. -/
theorem witness_SequenceCheckJudgesReports :
    let e := Configuration.initial.engine
    let k : Tracker := { locked 1000000 480 0 with anySeq := false, lastSeq := 255, candidate := true }
    let r : Report := report 600 250000
    gapLoses e k { r with seq := 5 } ∧ passes e k { r with seq := 4 } false ∧ passes e k r true ∧
      passes e Tracker.initial r true ∧ ((128 : Byte) - k.lastSeq - 1).toNat = 128 ∧ e.onReverse = true ∧
      ({ e with onReverse := false } : EngineConfig).onReverse = false ∧ following k ∧ following { k with follow := .held } ∧
      (479 : Nat) < k.anchorPos ∧ k.anchorPos < 481 ∧ 599 < k.basePos + 120 ∧ k.basePos + 120 ≤ r.pos ∧
      rawSample k r = 1000000 ∧ inWindow k.beat e.rateWindow 1000000 = true ∧
      rawSample k { r with time := 37500 } = 150000 ∧ rawSample k { r with time := 750000 } = 3000000 ∧
      inWindow k.beat e.rateWindow 150000 = false ∧ (1 : Nat) + 1 < 3 ∧ 3 ≤ (2 : Nat) + 1 ∧
      rawSample k { r with time := 37400 } < 150000 ∧ 3000000 < rawSample k { r with time := 750001 } := by
  refine ⟨by unfold gapLoses following; decide, ?_, .inl (by decide), .inl ⟨rfl, .inl rfl⟩, by decide, rfl, rfl, .inl rfl,
    .inr (.inr rfl), by decide⟩
  exact .inr ⟨rfl, rfl, by decide, by decide, by unfold gapLoses following; decide⟩

theorem witness_TrackerDeadlinesChangeTheFollowState :
    let s₀ := onStage .run Firing.initial { locked 1000000 0 0 with silence := some 5, horizon := some 5 }
    let s := sees s₀
    AwakeAt s₀ ∧ s.tracker.silence = some 5 ∧ s.tracker.horizon = some 5 ∧ due 5 (at_ 5).clock = true ∧
      s.tracker.follow = .locked ∧ s.config.engine.onSilence = true := ⟨⟨rfl, rfl⟩, rfl, rfl, by decide, rfl, rfl⟩

/-- Targets 0 and labels at, past and below the pointer and unknown; lf absent, 0 and past 0; a new pointer cue that is
not due; a hold that a GO releases with nothing due. -/
theorem witness_GoFiresTheNextCue :
    let s₀ := busyU (onStage .run ⟨4, some 3, some 5, .none, none⟩ Tracker.initial)
    let q := { Configuration.initial.engine with notices := (Vector.replicate 12 true).set 1 false |>.set 2 false }
    let s := sees (s₀.withConfig { s₀.config with engine := q })
    let c := { q with goReleases := true }
    let h₀ := busyU (onStage .hold ⟨4, some 3, some 5, .none, none⟩ Tracker.initial)
    let h := sees (h₀.withConfig { h₀.config with engine := c })
    let r := resumeShow .go none h
    AwakeAt (s₀.withConfig { s₀.config with engine := q }) ∧ payloadFits [0, 0, 0, 0] = true ∧ s.control.show_ = .run ∧
      (labelAt [0, 0, 0, 0] 0).number = 0 ∧ (fieldByte [0, 0, 0, 0] 3).getLsbD 0 = false ∧
      (fieldByte [0, 0, 0, 1] 3).getLsbD 0 = true ∧ s.firing.pointer < s.table.cues.length ∧
      (onStage .run ⟨9, some 8, some 5, .none, none⟩ Tracker.initial).table.cues.length ≤ 9 ∧
      s.table.search ⟨14, 0⟩ = some 4 ∧ s.table.search ⟨15, 0⟩ = some 5 ∧ s.table.search ⟨13, 0⟩ = some 3 ∧
      s.table.search ⟨13, 0x41⟩ = none ∧ s.firing.last = some (2 + 1) ∧
      (onStage .run ⟨1, some 0, some 5, .none, none⟩ Tracker.initial).firing.last = some 0 ∧ Firing.initial.last = none ∧
      nothingDue (pastFire 4 s) ∧ roomFor s .cueFired ∧ slipsDisabled s ∧ roomFor s .goIgnored ∧
      AwakeAt (h₀.withConfig { h₀.config with engine := c }) ∧ h.control.show_ = .hold ∧ h.config.engine.goReleases = true ∧
      nothingDue (setShow .run h) ∧ h.firing.pointer < h.table.cues.length ∧ roomFor h .showState ∧
      r.firing.pointer = 4 ∧ r.firing.last = some 3 ∧ r.table.cues.length = 9 ∧ r.table.search ⟨14, 0⟩ = some 4 ∧
      r.table.search ⟨15, 0⟩ = some 5 ∧ r.table.search ⟨13, 0⟩ = some 3 ∧ nothingDue (pastFire 4 r) ∧ roomFor r .cueFired ∧
      roomFor r .goIgnored ∧ slipsDisabled r := by
  refine ⟨⟨rfl, rfl⟩, by decide, rfl, by decide, by decide, by decide, by decide, by decide, by decide, by decide, by decide,
    by decide, rfl, rfl, rfl, ?_, ⟨rfl, by decide, by decide⟩, ⟨by decide, by decide⟩, ⟨rfl, by decide, by decide⟩,
    ⟨rfl, rfl⟩, rfl, rfl, ?_, by decide, ⟨rfl, by decide, by decide⟩, by decide, by decide, by decide, by decide, by decide,
    by decide, ?_, ⟨by decide, by decide, by decide⟩, ⟨by decide, by decide, by decide⟩, ⟨by decide, by decide⟩⟩ <;>
    (unfold nothingDue; decide)

/-- The three show states in which a GO is ignored, and room for its notice in the last place. -/
theorem witness_GoIsIgnoredOutsideRun :
    AwakeAt State.reset ∧ State.reset.control.show_ = .dark ∧ (showing .preset).control.show_ = .preset ∧
      (showing .hold).control.show_ = .hold ∧ (showing .hold).config.engine.goReleases = false ∧
      (let s := busyU State.reset
       roomFor (s.withManagement { s.management with
         notices := List.replicate 31 ⟨false, .counterHalf .uCheck 0⟩ }) .goIgnored) :=
  ⟨awake_reset, rfl, rfl, rfl, rfl, by decide, by decide, by decide⟩

/-- A MARK cue alone and one with a due MARK cue behind it; FOLLOW; a watch; channels with each kind of slot and staged
text; items arriving in each title-layer state, at two and at three queued. -/
theorem witness_PassedDeadlinesFire :
    let s₀ := busyU (onStage .run ⟨5, some 4, some 0, .mark 5, none⟩ (locked 1000000 4319 0))
    let s := sees s₀
    let two₀ := busyU (onStage .run ⟨5, some 4, some 0, .mark 5, none⟩ (locked 1000000 4560 0))
    let q := { Configuration.initial.engine with notices := (Vector.replicate 12 true).set 1 false |>.set 2 false }
    let two := sees (two₀.withConfig { two₀.config with engine := q })
    let mute := sees (two₀.withConfig { two₀.config with engine := { q with notices := q.notices.set 4 false } })
    let w := sees (busyU (onStage .run ⟨4, some 3, some 0, .none, some ⟨5, some 5⟩⟩ Tracker.initial))
    let c := fun slot => { (onStage .run Firing.initial Tracker.initial) with
      config := oneChannel, staging := ⟨[⟨⟨0, 0⟩, .ready ⟨[], 0, 1⟩⟩, ⟨⟨1, 0⟩, .failed⟩], [], none⟩
      table := ⟨[⟨⟨1, 0⟩, .manual, 0, 0, [slot]⟩, ⟨⟨2, 0⟩, .manual, 0, 0, [slot]⟩, ⟨⟨3, 0⟩, .manual, 0, 0, [slot]⟩], [1], none,
        Vector.replicate 6 (.served 0)⟩ }
    let items := fun k => List.replicate k (item 1 1)
    let d := fun layer k => withZero { Channel.initial with
      layer := layer, queue := items k, shown := some ⟨0, 3080⟩, reading := some 3080000 }
    AwakeAt s₀ ∧ s.control.show_ = .run ∧ s.firing.trigger = .mark 5 ∧ due 5 s.clock = true ∧
      stackedRun s s.table.cues.length s.firing.pointer = 5 ∧ roomFor s .overrun ∧
      stackedRun two two.table.cues.length two.firing.pointer = 6 ∧ nothingDue (pastFire 6 two) ∧
      two.firing.trigger = .mark 5 ∧ roomFor two .overrun ∧ roomFor two .cueFired ∧ slipsDisabled two ∧
      two.management.notices.length + 1 < Config.noticePlaces ∧ slipsDisabled mute ∧ roomFor mute .cueFired ∧
      mute.config.engine.notices[NoticeKind.overrun.index] = false ∧
      (onStage .run ⟨3, some 2, some 0, .follow 5 false, none⟩ Tracker.initial).firing.trigger = .follow 5 false ∧
      w.firing.watch = some ⟨5, some 5⟩ ∧ isDue (some 5) w.clock = true ∧ w.firing.pointer < 5 ∧ roomFor w .overrun ∧
      servedBy (c .blank) 0 = some 0 ∧ servedBy (c .blank) 1 = none ∧
      ((c .blank).table.cues[0]?).map (·.slots[0]?) = some (some .blank) ∧
      ((c .absent).table.cues[2]?).map (·.slots[0]?) = some (some .absent) ∧
      (c (.text 9)).staging.find ⟨0, 0⟩ = some (.ready ⟨[], 0, 1⟩) ∧ (c (.text 9)).staging.find ⟨1, 0⟩ = some .failed ∧
      (c (.text 9)).staging.find ⟨2, 0⟩ = none ∧ (d .gap 2).channels[(0 : Fin 8)].queue.length < 3 ∧
      3 ≤ (d .gap 3).channels[(0 : Fin 8)].queue.length ∧ (d .showing 0).channels[(0 : Fin 8)].layer = .showing ∧
      due (earlier 3080000 (later 0 (1000 * ((3080 * 60 + 99) / 100)))) (1848000 : Time) = true ∧
      due (earlier 3080000 (later 0 (1000 * ((3080 * 60 + 99) / 100)))) (1847999 : Time) = false ∧
      (d .off 0).channels[(0 : Fin 8)].layer = .off ∧ roomFor (busyU (d .gap 3)) .titleSkipped := by
  refine ⟨⟨rfl, rfl⟩, rfl, rfl, by decide, by decide, ⟨rfl, by decide, by decide⟩, by decide, by unfold nothingDue; decide, rfl,
    ⟨rfl, by decide, by decide⟩, ⟨rfl, by decide, by decide⟩, ⟨by decide, by decide⟩, by decide, ⟨by decide, by decide⟩,
    ⟨rfl, by decide, by decide⟩, by decide, rfl, rfl, by decide, by decide, ⟨rfl, by decide, by decide⟩, by decide, by decide, by decide, by decide, by decide, by decide,
    by decide, by decide, by decide, by decide, by decide, by decide, by decide, ⟨rfl, by decide, by decide⟩⟩

theorem witness_invariants :
    firedBelow State.reset ∧ placementsSound State.reset ∧ lockSound State.reset ∧ cellsSound State.reset ∧
      beatsSound State.reset ∧ queuesSound State.reset ∧ step State.reset = .next (tick State.reset) := by
  refine ⟨?_, ?_, ?_, ?_, ?_, ?_, rfl⟩
  · intro i h; cases h
  · exact ⟨fun p h => absurd h List.not_mem_nil, .nil⟩
  · intro h; cases h
  · exact ⟨rfl, fun _ _ _ h => by cases h⟩
  · refine ⟨⟨by decide, by decide⟩, ?_, by decide, by decide⟩
    intro b h
    cases h
  · exact ⟨by decide, by decide, by decide, by decide, by decide⟩

/-- PRESET with the target "first cue", and HOLD with the label of a COUNT cue and of a FOLLOW cue. -/
theorem witness_SetPointerPlacesThePointer :
    let s₀ := onStage .hold Firing.initial Tracker.initial
    let s := sees s₀
    ReadyAt (onStage .preset Firing.initial Tracker.initial) ∧ ReadyAt s₀ ∧ (⟨0, 0⟩ : Label).number = 0 ∧
      s.table.search ⟨12, 0⟩ = some 2 ∧ s.table.search ⟨13, 0⟩ = some 3 ∧ s.table.search ⟨18, 0⟩ = some 8 ∧
      s.table.cues[2]? = some (cue 12 (.count 2) 1920 0) :=
  ⟨⟨⟨rfl, rfl⟩, rfl, rfl, rfl, rfl⟩, ⟨⟨rfl, rfl⟩, rfl, rfl, rfl, rfl⟩, rfl, by decide, by decide, by decide, rfl⟩

/-- SHOWING and BLANK with nothing queued, with a title, with one awaiting its text, with a BLANK item; OFF; gaps of 150
and of 0 ms. -/
theorem witness_ReadingExpirySettlesTheTitle :
    let z := fun layer queue => withZero { Channel.initial with layer := layer, reading := some 5, queue := queue }
    let s₀ := z .showing [item 22 50]
    let s := sees s₀
    AwakeAt s₀ ∧ s.channels[(0 : Fin 8)].reading = some 5 ∧ due 5 s.clock = true ∧
      s.channels[(0 : Fin 8)].queue = item 22 50 :: [] ∧ (item 22 50).kind = .title ∧
      (item 22 50).text = some ⟨List.replicate 50 0x41, 50, 1⟩ ∧ ({ item 22 50 with text := none } : Item).text = none ∧
      ({ item 22 50 with kind := .blank } : Item).kind = .blank ∧ (s.languageOf 0).gap ≠ 0 ∧
      (sees (z .blank [])).channels[(0 : Fin 8)].queue = [] ∧ (sees (z .off [])).channels[(0 : Fin 8)].layer = .off ∧
      OnTop s 0 ∧ (s.channels[(0 : Fin 8)].content.isTitle = false) ∧ (composed (.title ⟨1, 0⟩ [] 1)).content.isTitle = true ∧
      (composed .blank).content = .blank ∧ Beneath (beneath (composed (.message .alert [] 1))) 0 ∧ Beneath State.reset 0 :=
  ⟨⟨rfl, rfl⟩, by decide, by decide, by decide, rfl, rfl, rfl, rfl, by decide, by decide, by decide, ⟨by decide, by decide⟩,
    by decide, rfl, rfl, .inr ⟨by decide, _, rfl, _, _, rfl⟩, .inl ⟨by decide, by decide⟩⟩

/-- A title layer on top on a port D that transmits, its slot empty and its slot with an unsent caption; a muted channel
and one under a test; a title layer beneath a message. -/
theorem witness_GapExpiryShowsTheNextTitle :
    let c : Channel := { Channel.initial with layer := .gap, next := some (item 22 50), gap := some 5, content := .blank }
    let s₀ := busyD (withZero c)
    let s := sees s₀
    let two := s.withLink { s.link with slots := s.link.slots.set 0 (some (captionOf 1 0 1 2 .blank)) }
    let quiet := { oneChannel with channels := oneChannel.channels.set 0 { oneChannel.channels[0] with muted := true } }
    AwakeAt s₀ ∧ s.channels[(0 : Fin 8)].layer = .gap ∧ s.channels[(0 : Fin 8)].next = some (item 22 50) ∧
      s.channels[(0 : Fin 8)].gap = some 5 ∧ due 5 s.clock = true ∧ OnTop s 0 ∧ s.link.sendingD.isSome = true ∧
      s.config.channels[(0 : Fin 8)].muted = false ∧ withheld s 0 = false ∧ s.link.slots[(0 : Fin 8)] = none ∧
      two.link.slots[(0 : Fin 8)] = some (captionOf 1 0 1 2 .blank) ∧ quiet.channels[(0 : Fin 8)].muted = true ∧
      withheld (testing record0) 0 = true ∧ Beneath (beneath { c with content := .message .alert [] 1 }) 0 :=
  ⟨⟨rfl, rfl⟩, by decide, by decide, by decide, by decide, ⟨by decide, by decide⟩, by decide, by decide, by decide, by decide,
    by decide, by decide, by decide, .inr ⟨by decide, _, rfl, _, _, rfl⟩⟩

/-- Level 1 in PRESET with one enabled channel in the mask and with none; level 3 in DARK; a text of 160 bytes; a channel
of the set with no higher message and one out of the set. -/
theorem witness_ShowMessageIsPlaced :
    let s₀ := busyD ((showing .preset).withConfig oneChannel)
    let s := sees s₀
    ReadyAt s₀ ∧ ReadyAt State.reset ∧ levelOf 1 = some .slate ∧ levelOf 3 = some .alert ∧ (head 0xDF).confirm = 0xDF ∧
      s.control.show_ ≠ .dark ∧ placementSet .slate 1 s = 1 ∧ placementSet .slate 2 s = 0 ∧ (2 : Byte) ≠ 0 ∧
      (List.replicate 160 (0 : Byte)).length ≤ 160 ∧ setHas 1 0 = true ∧ setHas 1 1 = false ∧
      messageAt s 0 .house = none ∧ messageAt s 0 .alert = none ∧ s.config.channels[(0 : Fin 8)].muted = false ∧
      withheld s 0 = false ∧ s.link.sendingD.isSome = true :=
  ⟨⟨⟨rfl, rfl⟩, rfl, rfl, rfl, rfl⟩, ready_reset, rfl, rfl, rfl, by decide, by decide, by decide, by decide, by decide +kernel,
    by decide, by decide, by decide, by decide, by decide, by decide, by decide⟩

theorem witness_ClearMessageEmptiesTheSlots :
    let s₀ := State.reset.withPlacements [⟨7, .slate, [], 1, 0, some 5, 3⟩]
    let s := sees s₀
    ReadyAt s₀ ∧ levelOf 1 = some .slate ∧ levelOf 3 = some .alert ∧ (head 0xDE).confirm = 0xDE ∧ clearedSet .slate 2 s = 2 :=
  ⟨⟨⟨rfl, rfl⟩, rfl, rfl, rfl, rfl⟩, rfl, rfl, rfl, by decide⟩

theorem witness_MessageExpiryRemovesThePlacement :
    let s₀ := busyU (State.reset.withPlacements [⟨7, .slate, [], 1, 0, some 5, 3⟩])
    let s := sees s₀
    AwakeAt s₀ ∧ s.placements[0]? = some ⟨7, .slate, [], 1, 0, some 5, 3⟩ ∧ due 5 (at_ 5).clock = true ∧
      roomFor s .messageExpired := ⟨⟨rfl, rfl⟩, rfl, by decide, by decide, by decide, by decide⟩

/-- The last byte of the store, and the longest run. -/
theorem witness_ReadStoreJoinsTheQueue :
    ReadyAt State.reset ∧ (2097151 : BitVec 32).toNat + (1 : Byte).toNat ≤ 2097152 ∧ (224 : Byte).toNat ≤ 224 ∧
      State.reset.store.isLoading = false ∧ State.reset.store.runErasing 2097151 1 = false ∧
      (inFlight (.erase 2)).store.runErasing 4096 4096 = false :=
  ⟨ready_reset, by decide, by decide, rfl, rfl, by decide⟩

/-- A run of a sound unit's byte, a failing unit's byte and an ERASED byte of that unit, behind an erase that it
suspends. -/
theorem witness_ReadStoreServedAnswers :
    let s₀ := (State.reset.withManagement { State.reset.management with handling := some ⟨0, 0x30, 7⟩ }).withStore
      { State.reset.store with
        cells := [(15, 7), (16, 1)], queue := [.readStore 15 3], flight := some ⟨.erase 9, 9⟩, suspended := true }
    let s := atMoment (failing 5 1) s₀
    Awake (failing 5 1) s₀ s ∧ s.management.handling = some ⟨0, 0x30, 7⟩ ∧ s.store.queue = [.readStore 15 3] ∧
      s.store.blocksReads = false ∧ s.management.restart = .none ∧ s.management.fifo = [] ∧ s.link.response = none ∧
      (unitsOf 15 3).find? s.store.unitFails = some 1 ∧ s.store.cells.get? 17 = none ∧
      s.store.cells.get? 15 = some 7 ∧ s.store.unitFails 0 = false ∧ s.store.cells.get? 16 = some 1 ∧
      s.store.unitError 1 = some (.manyBits 3) :=
  ⟨⟨rfl, rfl⟩, rfl, rfl, rfl, rfl, rfl, rfl, by decide, by decide, by decide, by decide, by decide, by decide⟩

/-- Acts 1 and 8, DARK with VALID set, and a checksum of the whole store. -/
theorem witness_StoreOperationsAreAccepted :
    let s₀ := State.reset.withManagement { State.reset.management with valid := true }
    let s := sees s₀
    ReadyAt s₀ ∧ s.store.flight = none ∧ (1 : Byte).toNat = 1 ∧ (8 : Byte).toNat = 8 ∧ s.store.lock = false ∧
      s.control.show_ = .dark ∧ s.management.valid = true ∧ s.store.queue = [] ∧
      (0 : BitVec 32).toNat + (2097152 : BitVec 32).toNat ≤ 2097152 :=
  ⟨⟨⟨rfl, rfl⟩, rfl, rfl, rfl, rfl⟩, rfl, by decide, by decide, rfl, rfl, rfl, rfl, by decide⟩

/-- A run that fills its page but 32 bytes, and sector 511. -/
theorem witness_ProgramAndEraseAreAccepted :
    ReadyAt State.reset ∧ State.reset.store.flight = none ∧ runInPage 819200 224 = true ∧
      ({ State.reset.store with faults := [] } : Store).sectorProtected 200 = false ∧
      State.reset.store.cells.runErased 819200 224 = true ∧ (511 : BitVec 16).toNat ≤ 511 ∧
      ({ State.reset.store with faults := [] } : Store).sectorProtected 511 = false :=
  ⟨ready_reset, rfl, by decide, by decide, by decide +kernel, by decide, by decide⟩

/-- A completion with OP_DONE admitted, and one during a RESTART. -/
theorem witness_ProgramGivesExactlyItsBytes :
    let s₀ := busyU (inFlight (.program 255 [1]))
    let s := sees s₀
    let r₀ := s.withManagement { s.management with restart := .sent }
    let r := sees r₀
    AwakeAt s₀ ∧ s.store.flight = some ⟨.program 255 [1], 9⟩ ∧ s.management.restart = .none ∧ roomFor s .opDone ∧ AwakeAt r₀ ∧
      r.management.restart ≠ .none := ⟨⟨rfl, rfl⟩, rfl, rfl, ⟨rfl, by decide, by decide⟩, ⟨rfl, rfl⟩, by decide⟩

theorem witness_EraseEmptiesExactlyItsSector :
    let s₀ := busyU (inFlight (.erase 511))
    let s := sees s₀
    let r₀ := s.withStore { s.store with suspended := true }
    let r := sees r₀
    AwakeAt s₀ ∧ s.store.flight = some ⟨.erase 511, 9⟩ ∧ s.store.suspended = false ∧ roomFor s .opDone ∧ AwakeAt r₀ ∧
      r.store.suspended = true := ⟨⟨rfl, rfl⟩, rfl, rfl, ⟨rfl, by decide, by decide⟩, ⟨rfl, rfl⟩, rfl⟩

/-- A checksum of one byte, a verify of an absent act and of the smallest act, without error; one unit read between
commands; a verify whose entry fails; one that a queued read holds up; many units with COUNTER_HALF disabled. -/
theorem witness_VerifyAndChecksumReport :
    let s₀ := busyU (inFlight (.checksum 2097151 1))
    let s := sees s₀
    let v₀ := busyU (withAct (some (.verify 1)))
    let v := sees v₀
    let f := atMoment (failing 5 0) v₀
    let w := sees (v₀.withStore { v₀.store with queue := [.staging] })
    AwakeAt s₀ ∧ s.store.flight = some ⟨.checksum 2097151 1, 9⟩ ∧ roomFor s .opDone ∧ readsFree s ∧ readsQuietly s ∧
      (∀ u ∈ s.store.readsLeft, s.store.unitFails u = false) ∧ s.store.readsLeft = [131071] ∧
      (sees (inFlight (.verify 8))).store.flight = some ⟨.verify 8, 9⟩ ∧
      (dirEntry State.reset.store.cells 8).all (fun d => !d.wellFormed) = true ∧
      AwakeAt v₀ ∧ v.store.flight = some ⟨.verify 1, 9⟩ ∧ roomFor v .opDone ∧ readsFree v ∧
      (v.store.readsLeft.all fun u => !v.store.unitFails u) = true ∧
      (dirEntry v.store.cells 1).map (·.wellFormed) = some true ∧
      (atMoment (reading 5 1) v₀).store.readsLeft = v₀.store.readsLeft.drop 1 ∧ Awake (failing 5 0) v₀ f ∧
      f.store.readsLeft.find? f.store.unitFails = some 0 ∧ ¬ readsFree w ∧
      readsQuietly (v.withConfig { v.config with engine :=
        { v.config.engine with notices := (Vector.replicate 12 true).set 9 false } }) := by
  refine ⟨⟨rfl, rfl⟩, rfl, ⟨rfl, by decide, by decide⟩, .inl rfl, .inl (by decide), by decide, by decide, rfl, by decide,
    ⟨rfl, rfl⟩, rfl, ⟨rfl, by decide, by decide⟩, .inl rfl, by decide +kernel, by decide +kernel, by decide +kernel, ⟨rfl, rfl⟩,
    by decide +kernel, by unfold readsFree; decide +kernel, .inr (by decide)⟩

/-- Acts 1 and 8, set and cleared. -/
theorem witness_ProtectionUpdateChangesOneFlag :
    let s₀ := busyU (inFlight (.protect 8))
    let s := sees s₀
    let u₀ := busyU (inFlight (.unprotect 1))
    let u := sees u₀
    AwakeAt s₀ ∧ s.store.flight = some ⟨if true then .protect 8 else .unprotect 8, 9⟩ ∧ roomFor s .opDone ∧ AwakeAt u₀ ∧
      u.store.flight = some ⟨if false then .protect 1 else .unprotect 1, 9⟩ :=
  ⟨⟨rfl, rfl⟩, rfl, ⟨rfl, by decide, by decide⟩, ⟨rfl, rfl⟩, rfl⟩

theorem witness_LockShowSetsTheLock :
    let s₀ := State.reset.withStore { State.reset.store with lock := true }
    let s := sees s₀
    ReadyAt State.reset ∧ State.reset.store.updating = false ∧ ReadyAt s₀ ∧ s.store.lock = true ∧ 1 ≤ (1 : Byte).toNat ∧
      (8 : Byte).toNat ≤ 8 := ⟨ready_reset, rfl, ⟨⟨rfl, rfl⟩, rfl, rfl, rfl, rfl⟩, rfl, by decide, by decide⟩

/-- A failing unit with the trap empty and with the trap holding another. -/
theorem witness_EccTrapIsReadAndCleared :
    let st : Store := { State.reset.store with cells := [(16, 1)], faults := (failing 5 1).faults }
    ReadyAt State.reset ∧ (State.reset.withStore st).store.unitFails 1 = true ∧ st.trap = none ∧
      (State.reset.withStore { st with trap := some ⟨0, .staging⟩ }).store.unitFails 1 = true := 
  ⟨ready_reset, by decide, rfl, by decide⟩

/-- A load that succeeds, one that finds no act, one whose entry has no cue, one whose image differs, one whose entry
fails; and a load that has read its entry. -/
theorem witness_LoadPlacesTheActOrNothing :
    let s₀ := busyU (withAct (some (.load 1)))
    let s := sees s₀
    let f := atMoment (failing 5 0) s₀
    AwakeAt s₀ ∧ s.store.flight = some ⟨.load 1, 9⟩ ∧ readsFree s ∧
      (s.store.readsLeft.all fun u => !s.store.unitFails u) = true ∧
      loadEnd s.store.cells 1 = .success ⟨1, 1⟩ [0x656e67] 1000000 [⟨⟨1, 0⟩, .manual, 0, 0, [.absent]⟩] ∧
      roomFor s .opDone ∧ roomFor s .showState ∧ s.management.notices.length + 2 ≤ 32 ∧ s.management.restart = .none ∧
      readsQuietly (s.withStore { s.store with reads := 4 }) ∧ loadEnd State.reset.store.cells 8 = .noAct ∧
      loadEnd (s.store.cells.put 9 1) 1 = .corrupt none ∧ loadEnd (s.store.cells.put 4097 1) 1 = .check ∧
      f.store.readsLeft.find? f.store.unitFails = some 0 ∧ Awake (failing 5 0) s₀ f ∧
      ¬ readsFree (s.withStore { s.store with queue := [.staging] }) ∧ s₀.store.queue = [] ∧
      (dirEntry s₀.store.cells 1).map (·.loadable) = some true ∧ (atMoment (reading 5 1) s₀).store.reads ≠ 0 ∧
      recordsFrom image 4096 ⟨[0x656e67], 2, 1000000, 36, 51, 0⟩ 2 [] = .failing 1 := by
  refine ⟨⟨rfl, rfl⟩, rfl, .inl rfl, by decide +kernel, by decide +kernel, ⟨rfl, by decide, by decide⟩,
    ⟨rfl, by decide, by decide⟩, by decide, rfl, .inl (by decide +kernel), by decide, by decide +kernel, by decide +kernel,
    by decide +kernel, ⟨rfl, rfl⟩, by unfold readsFree; decide +kernel, rfl, by decide +kernel, by decide +kernel,
    by decide +kernel⟩

/-- Reads of the pointer's cue, good and failing, and one gone stale; nothing awaited, and a BLANK and a GAP channel that
await the key. -/
theorem witness_StagingReadEndKeepsTheResult :
    let read : StagingRead := ⟨⟨0, 0⟩, 16, false⟩
    let awaiting : Item := { item 1 1 with text := none }
    let s₀ := busyU (((onStage .preset Firing.initial Tracker.initial).withStaging ⟨[], [⟨⟨0, 0⟩, 3⟩], some read⟩).withStore
      { State.reset.store with cells := [(16, 0)], queue := [.staging] })
    let s := sees ((s₀.withChannel 0 { Channel.initial with layer := .blank, queue := [awaiting] }).withChannel 1
      { Channel.initial with layer := .gap, queue := [awaiting] })
    let f := atMoment (failing 5 1) s₀
    AwakeAt ((s₀.withChannel 0 { Channel.initial with layer := .blank, queue := [awaiting] }).withChannel 1
        { Channel.initial with layer := .gap, queue := [awaiting] }) ∧
      s.staging.reading = some read ∧ s.store.queue = .staging :: [] ∧ s.store.blocksReads = false ∧
      s.management.restart = .none ∧ s.staging.awaited.find? (fun a => a.key = read.key) = some ⟨⟨0, 0⟩, 3⟩ ∧
      setHas 3 1 = true ∧ setHas 3 2 = false ∧ s.channels[(0 : Fin 8)].queue = awaiting :: [] ∧
      awaiting.awaits read.key = true ∧ s.channels[(0 : Fin 8)].layer = .blank ∧
      isAhead s.channels[(0 : Fin 8)].reading s.clock = false ∧ s.channels[(1 : Fin 8)].layer = .gap ∧
      wantsEntry read s = true ∧ wantsEntry { read with stale := true } s = false ∧
      (textUnits s.store 16).find? s.store.unitFails = none ∧ (textUnits f.store 16).find? f.store.unitFails = some 1 ∧
      roomFor s .storeError ∧ State.reset.staging.awaited = [] :=
  ⟨⟨rfl, rfl⟩, rfl, rfl, rfl, rfl, by decide, by decide, by decide, by decide, by decide, by decide, by decide, by decide,
    by decide, by decide, by decide, by decide, ⟨rfl, by decide, by decide⟩, rfl⟩

/-- A FOLLOW cue with a remainder of one microsecond, a COUNT cue, a MARK cue. -/
theorem witness_HoldPausesTheFiringUnit :
    let s := fun k => busyU (onStage .run ⟨3, some 2, some 0, k, none⟩ Tracker.initial)
    ReadyAt (s (.follow 6 false)) ∧ (s (.follow 6 false)).control.show_ = .run ∧ due 6 (at_ 5).clock = false ∧
      (s (.count 0)).firing.trigger = .count 0 ∧ (s (.mark 5)).firing.trigger = .mark 5 ∧
      roomFor (s (.mark 5)) .showState := ⟨⟨⟨rfl, rfl⟩, rfl, rfl, rfl, rfl⟩, rfl, by decide, rfl, rfl, ⟨rfl, by decide, by decide⟩⟩

/-- START with the force flag, and without it and no channel missing; RESUME; a pointer cue of each kind, paused and not,
with and without a previous fire; a MARK cue reached, ahead, and without time; the end of the act. -/
theorem witness_StartAndResumeEnterRun :
    let f := fun p trigger previous => onStage .hold ⟨p, none, previous, trigger, none⟩ (locked 1000000 1920 0)
    ReadyAt (busyU (showing .preset)) ∧ (sees (showing .preset)).tools.running = .none ∧
      (∀ n : Fin 8, (sees (showing .preset)).channels[n].present ≠ .missing) ∧
      roomFor (sees (busyU (showing .preset))) .showState ∧ ReadyAt (busyU (f 4 .none none)) ∧
      nothingDue (setShow .run (f 4 .none none)) ∧ scene.length ≤ (f 9 .none none).firing.pointer ∧
      (f 1 .none none).tracker.arrival 4 1920 = .reachedAt 0 ∧ (f 1 .none none).tracker.arrival 4 3841 = .noTime ∧
      ({ (f 1 .none none).tracker with follow := .held } : Tracker).arrival 4 1920 = .already ∧
      ((f 1 .none none).table.cues[1]?).map (·.trigger) = some .mark ∧
      ((f 2 (.count 1) none).table.cues[2]?).map (·.trigger) = some (.count 2) ∧
      ((f 3 (.paused 7) (some 0)).table.cues[3]?).map (·.trigger) = some (.follow 3000) ∧
      ((f 4 .none none).table.cues[4]?).map (·.trigger) = some .manual ∧ (f 4 .none none).config.engine.watchOn = true :=
  ⟨⟨⟨rfl, rfl⟩, rfl, rfl, rfl, rfl⟩, rfl, by decide, ⟨rfl, by decide, by decide⟩, ⟨⟨rfl, rfl⟩, rfl, rfl, rfl, rfl⟩,
    by unfold nothingDue; decide, by decide, by decide, by decide, by decide, by decide, by decide, by decide, by decide,
    by decide⟩

theorem witness_StopReturnsToPreset :
    let s₀ := (onStage .run Firing.initial Tracker.initial).withConfig oneChannel
    let s := sees s₀
    ReadyAt s₀ ∧ s.control.show_ = .run ∧ ReadyAt (showing .hold) ∧ s.table.beat = some 1000000 ∧
      s.config.channels[(0 : Fin 8)].enabled = true ∧ s.config.channels[(7 : Fin 8)].enabled = false :=
  ⟨⟨⟨rfl, rfl⟩, rfl, rfl, rfl, rfl⟩, rfl, ready_showing .hold, rfl, by decide, by decide⟩

theorem witness_UnloadReturnsToDark :
    let s₀ := (onStage .preset Firing.initial Tracker.initial).withConfig oneChannel
    let s := sees s₀
    ReadyAt s₀ ∧ (head 0xEA).confirm = 0xEA ∧ s.control.show_ ≠ .dark ∧ s.config.channels[(0 : Fin 8)].enabled = true :=
  ⟨⟨⟨rfl, rfl⟩, rfl, rfl, rfl, rfl⟩, rfl, by decide, by decide⟩

/-- An operation carried through, one abandoned, none; and the instant the restart takes effect. -/
theorem witness_RestartIsAnsweredThenTakesEffect :
    let s₀ := State.reset.withManagement { State.reset.management with restart := .sent }
    let s := sees s₀
    ReadyAt (inFlight (.erase 3)) ∧ (StoreOp.erase 3).carried = true ∧ ReadyAt (inFlight (.verify 3)) ∧
      (StoreOp.verify 3).carried = false ∧ ReadyAt State.reset ∧ (head 0x80).confirm = 0x80 ∧ (head 0).confirm ≠ 0x80 ∧
      AwakeAt s₀ ∧ s.management.restart = .sent ∧ s.store.flight = none :=
  ⟨⟨⟨rfl, rfl⟩, rfl, rfl, rfl, rfl⟩, rfl, ⟨⟨rfl, rfl⟩, rfl, rfl, rfl, rfl⟩, rfl, ready_reset, rfl, by decide, ⟨rfl, rfl⟩, rfl, rfl⟩

/-- A structural list in DARK, one refused outside DARK and one during a load, one whose second pair is out of range; a
new address, a channel disabled with its test, a channel unmuted. -/
theorem witness_SetConfigAppliesTheWholeList :
    let good : List ConfigPair := [⟨0x1001, [1]⟩, ⟨0x1002, [223]⟩]
    let bad : List ConfigPair := [⟨0x1001, [1]⟩, ⟨0x1002, [224]⟩]
    let muted := { oneChannel with channels := oneChannel.channels.set 0 { oneChannel.channels[0] with muted := true } }
    let s₀ := (testing record0).withConfig oneChannel
    ReadyAt State.reset ∧ requestFits (head 0) (.setConfig good) = true ∧ good.all pairInRange = true ∧
      good.any pairStructural = true ∧ (sees State.reset).control.show_ = .dark ∧ (sees State.reset).store.isLoading = false ∧
      ReadyAt (showing .preset) ∧ (sees (showing .preset)).control.show_ ≠ .dark ∧
      requestFits (head 0) (.setConfig bad) = true ∧ bad[1]? = some ⟨0x1002, [224]⟩ ∧ pairInRange ⟨0x1002, [224]⟩ = false ∧
      (bad.take 1).all pairInRange = true ∧ ReadyAt (inFlight (.load 1)) ∧
      (sees (inFlight (.load 1))).store.isLoading = true ∧ ReadyAt s₀ ∧ (sees s₀).tools.running = .test record0 ∧
      record0.channel = 0 ∧ (applyPairs oneChannel [⟨0x1001, [0]⟩]).channels[(0 : Fin 8)].enabled = false ∧
      oneChannel.channels[(0 : Fin 8)].address ≠ (applyPairs oneChannel [⟨0x1002, [9]⟩]).channels[(0 : Fin 8)].address ∧
      muted.channels[(0 : Fin 8)].muted = true ∧
      (applyPairs muted [⟨0x1005, [0]⟩]).channels[(0 : Fin 8)].muted = false :=
  ⟨ready_reset, by decide, by decide, by decide, rfl, rfl, ready_showing .preset, by decide, by decide, rfl, by decide,
    by decide, ⟨⟨rfl, rfl⟩, rfl, rfl, rfl, rfl⟩, rfl, ⟨⟨rfl, rfl⟩, rfl, rfl, rfl, rfl⟩, rfl, rfl, by decide, by decide, by decide,
    by decide⟩

/-- A configuration that meets the three conditions; the defaults do not meet the first. -/
theorem witness_CommitSetsValid :
    let c := { oneChannel with languages := oneChannel.languages.set 0 { oneChannel.languages[0] with code := some 0x656e67 } }
    ReadyAt (State.reset.withConfig c) ∧ commitFailure c = none ∧ ReadyAt State.reset ∧
      commitFailure State.reset.config = some (1, 0) := ⟨⟨⟨rfl, rfl⟩, rfl, rfl, rfl, rfl⟩, by decide, ready_reset, by decide⟩

/-- Handling under way with three and with four requests waiting; a payload of two bytes, which does not decode. -/
theorem witness_RequestsAreTakenQueuedOrDropped :
    (∀ k, k = 3 ∨ k = 4 →
      let s₀ := State.reset.withManagement { State.reset.management with
        handling := some ⟨0, 0x30, 7⟩, fifo := List.replicate k ⟨0, []⟩ }
      let s := sees s₀
      AwakeAt s₀ ∧ s.management.handling ≠ none ∧ s.management.fifo.length = k) ∧
      ReadyAt State.reset ∧ payloadFits (List.replicate 240 0) = true ∧ decodeRequest [1, 7] = none := by
  refine ⟨?_, ready_reset, by decide +kernel, by decide⟩
  rintro k (rfl | rfl) <;> exact ⟨⟨rfl, rfl⟩, fun h => (by cases h), rfl⟩

/-- A caption, a PROBE, a TEST frame, a passthrough frame and nothing at the end of a transmission of port D, and each
source's turn given to the next; the end of a running test's frame; a response,
a notice and a passthrough frame at that of port U; two captions of one mark on either side of the last channel served. -/
theorem witness_PortsSendTheArbitersChoice :
    let cap := captionOf 1 0 1 2 .blank
    let l := State.reset.link
    let d₀ := busyD (State.reset.withLink { l with slots := l.slots.set 0 (some cap) })
    let d := sees d₀
    let p₀ := busyD (State.reset.withLink { l with tool := some (.probe 1 true), dNext := .tools })
    let x₀ := busyD ((testing record0).withLink { l with tool := some (.test 0 1 4 true) })
    let w₀ := busyD (State.reset.withLink { l with downFifo := [f0], dNext := .tools })
    let u₀ := busyU State.reset
    let r₀ := u₀.withLink { u₀.link with response := some ⟨0, 1, 7, .ok, []⟩ }
    let r := sees r₀
    let n₀ := u₀.withManagement { u₀.management with notices := [⟨false, .counterHalf .uCheck 0⟩] }
    let n := sees n₀
    let g₀ := u₀.withLink { u₀.link with upFifo := [f0] }
    AwakeAt d₀ ∧ d.link.sendingD = some ⟨f0, none⟩ ∧ d.link.dNext = .captions ∧ pickCaption d.link = some (0, cap) ∧
      AwakeAt (busyD State.reset) ∧ (∀ k : Fin 8, (sees (busyD State.reset)).link.slots[k] = none) ∧
      AwakeAt r₀ ∧ r.link.sendingU = some f0 ∧ r.link.response = some ⟨0, 1, 7, .ok, []⟩ ∧ r.management.fifo = [] ∧
      AwakeAt n₀ ∧ n.link.response = none ∧ n.management.notices = [⟨false, .counterHalf .uCheck 0⟩] ∧ n.link.uNext = .notices ∧
      AwakeAt p₀ ∧ (sees p₀).link.dNext = .tools ∧ (sees p₀).link.tool = some (.probe 1 true) ∧ AwakeAt x₀ ∧
      (sees x₀).link.tool = some (.test 0 1 4 true) ∧ (sees x₀).tools.running = .test record0 ∧ AwakeAt w₀ ∧
      (sees w₀).link.downFifo = [f0] ∧ (sees w₀).link.tool = none ∧ AwakeAt g₀ ∧ (sees g₀).link.upFifo = [f0] ∧
      (sees g₀).management.notices = [] ∧
      pickCaption { l with slots := (l.slots.set 2 (some cap)).set 5 (some cap), dLast := 2 } = some (5, cap) ∧
      ({ d.link with dNext := .downFifo } : Link).downFifo = [] ∧ d.link.tool = none ∧
      (∀ k : Fin 8, (sees p₀).link.slots[k] = none) ∧ (sees p₀).link.downFifo = [] ∧
      (∀ k : Fin 8, (sees w₀).link.slots[k] = none) ∧ (toolSent (some (.test 0 0 4 true)) (sees x₀)).tools.running =
        .test { record0 with gapDeadline := some (later 5 10000) } :=
  ⟨⟨rfl, rfl⟩, rfl, rfl, by decide, ⟨rfl, rfl⟩, by decide, ⟨rfl, rfl⟩, rfl, rfl, rfl, ⟨rfl, rfl⟩, rfl, rfl, rfl, ⟨rfl, rfl⟩, rfl,
    rfl, ⟨rfl, rfl⟩, rfl, rfl, ⟨rfl, rfl⟩, rfl, rfl, ⟨rfl, rfl⟩, rfl, rfl, by decide, rfl, rfl, by decide, rfl, by decide, by decide⟩

/-- A census accepted on an idle and on a busy port D; answers of another id, new, past the list's 32 places, from an
address listed, and empty; its expiry. -/
theorem witness_CensusListsAnswersAndJudges :
    let full := (List.range 32).map (fun k => (⟨BitVec.ofNat 8 k, 0, false⟩ : CensusEntry))
    ReadyAt State.reset ∧ (sees State.reset).tools.running = .none ∧ (sees State.reset).link.tool = none ∧
      ReadyAt (busyD State.reset) ∧ AwakeAt (censusing []) ∧ payloadFits [1, 0] = true ∧ payloadFits [] = true ∧
      (censusing []).tools.running = .census 7 5 ∧ (2 : Byte) ≠ (censusing []).tools.id ∧ 1 = (censusing []).tools.id ∧
      ([] : List Byte).getD 0 0 ≠ (censusing []).tools.id ∧
      (∀ e ∈ (censusing full).tools.list, e.address ≠ 32) ∧ (censusing full).tools.list.length = 32 ∧
      (∀ e ∈ (censusing (full.take 31)).tools.list, e.address ≠ 31) ∧ (censusing (full.take 31)).tools.list.length < 32 ∧
      (∃ e ∈ (censusing full).tools.list, e.address = 31) ∧ due 5 (at_ 5).clock = true :=
  ⟨ready_reset, rfl, rfl, ⟨⟨rfl, rfl⟩, rfl, rfl, rfl, rfl⟩, ⟨rfl, rfl⟩, by decide, by decide, rfl, by decide, by decide,
    by decide, by decide, by decide, by decide, by decide, by decide, by decide⟩

/-- A test accepted with the longest frame and gap; a gap, a completion and a STOP_TEST of a running test; echoes of the
expected frame, of a later one already sent, of one not yet sent, and one 32,768 behind; one intact and one not. -/
theorem witness_ScreenTestSendsCountsAndEnds :
    let s₀ := State.reset.withConfig oneChannel
    let s := sees s₀
    let g₀ := busyD (testing { record0 with gapDeadline := some 5 })
    let g := sees g₀
    let e₀ := busyU (testing { record0 with endDeadline := some 5 })
    let e := sees e₀
    let f₀ := (testing record0).withLink { State.reset.link with sendingD := some ⟨f0, some (.test 0 0 4 true)⟩ }
    ReadyAt s₀ ∧ (0 : Byte).toNat = (0 : Fin 8).val ∧ s.config.channels[(0 : Fin 8)].enabled = true ∧ (200 : Byte).toNat ≤ 200 ∧
      (1000 : BitVec 16).toNat ≤ 1000 ∧ s.tools.running = .none ∧ AwakeAt g₀ ∧ g.link.tool = none ∧
      g.link.sendingD.isSome = true ∧ due 5 g.clock = true ∧ ReadyAt (testing record0) ∧ AwakeAt (testing record0) ∧
      (sees (testing record0)).tools.running = .test record0 ∧ payloadFits (be 2 0 ++ testBytes 0 4) = true ∧
      fieldNat (be 2 0) 0 2 < record0.sent ∧ ¬ fieldNat (be 2 1) 0 2 < record0.sent ∧
      (fieldNat (be 2 1) 0 2 + 65536 - record0.expected) % 65536 = 1 ∧
      32768 ≤ (fieldNat (be 2 32768) 0 2 + 65536 - record0.expected) % 65536 ∧
      (be 2 0 ++ testBytes 0 4).drop 2 = testBytes 0 record0.length ∧ ([0, 0] : List Byte).drop 2 ≠ testBytes 0 record0.length ∧
      AwakeAt e₀ ∧ roomFor e .opDone ∧ AwakeAt f₀ ∧ (sees f₀).link.tool = none ∧ record0.count ≠ 0 ∧
      record0.sent < record0.count ∧ ({ record0 with sent := 3 } : TestRecord).count ≤ 3 :=
  ⟨⟨⟨rfl, rfl⟩, rfl, rfl, rfl, rfl⟩, rfl, by decide, by decide, by decide, rfl, ⟨rfl, rfl⟩, rfl, rfl, by decide,
    ⟨⟨rfl, rfl⟩, rfl, rfl, rfl, rfl⟩, ⟨rfl, rfl⟩, rfl, by decide, by decide, by decide, by decide, by decide, by decide,
    by decide, ⟨rfl, rfl⟩, ⟨rfl, by decide, by decide⟩, ⟨rfl, rfl⟩, rfl, by decide, by decide, by decide⟩

/-- Every show state with its own request; UNLOAD with its confirm byte. -/
theorem witness_RequestsForThePresentStateAreRefused :
    (∀ show_, ReadyAt (showing show_) ∧ (showing show_).control.show_ = show_) ∧ (head 0xEA).confirm = 0xEA ∧
      (showing .preset).control.show_ ≠ .dark ∧ 1 ≤ (1 : Byte).toNat ∧ (8 : Byte).toNat ≤ 8 :=
  ⟨fun show_ => ⟨ready_showing show_, rfl⟩, rfl, by decide, by decide, by decide⟩

theorem witness_ConfirmByteGuardsFourRequests :
    ReadyAt State.reset ∧ (head 0).confirm ≠ 0x80 ∧ (head 0).confirm ≠ 0xEA ∧ (head 0).confirm ≠ 0xDF ∧
      (head 0).confirm ≠ 0xDE ∧ requestFits (head 0) (.showMessage 3 1 0 []) = true ∧ levelOf 0 = none ∧ levelOf 4 = none ∧
      requestFits (head 0) (.showMessage 4 1 0 []) = true ∧ Request.stop ≠ .restart ∧ Request.stop ≠ .unload ∧
      Request.showMessage 1 1 0 [] ≠ .showMessage 3 1 0 [] := 
  ⟨ready_reset, by decide, by decide, by decide, by decide, by decide, by decide, by decide, by decide, by decide, by decide,
    by decide⟩

/-- Folding and durations at their bounds. -/
theorem witness_FoldedTextAndDurations :
    1 ≤ 1 ∧ folded 1 [0x41, 0x0A, 0x42] 2 = ([0x41, 0x20, 0x42], 1) ∧ appliedDuration 600 = 600 ∧ appliedDuration 601 = 600 ∧
      expiryOf 0 0 = none ∧ expiryOf 0 1 = some 1000000 := by decide

/-- A frame with the longest payload parses. -/
theorem witness_FramesParseExactlyWhenGood :
    let f : Frame := ⟨224, 0, 0x20, 5, [1, 7, 0]⟩
    parseFrame f.bytes = some f ∧ f.payload.length ≤ Config.payloadMax := by decide +kernel

end Sys2Proof.Tests
end

section
/-! The idle step: what `tick` does with and without power, and the branch of `step` that runs it (log 1, R1). -/

namespace Sys2Proof.Machine

variable {s : State}

theorem tick_of_powered (hpow : s.powered = true) : tick s = s.withClock (s.clock + 1) :=
  if_pos hpow

theorem tick_of_unpowered (hoff : s.powered = false) : tick s = s :=
  if_neg (Bool.eq_false_iff.mp hoff)

theorem step_of_pending_nil (hidle : s.pending = []) : step s = .next (tick s) := by
  simp only [step, hidle]

end Sys2Proof.Machine

namespace Sys2Proof.Proofs

open Sys2Proof.Machine

/-- Settles O2: an idle step is a `tick`, which counts with power and rests without. -/
theorem idleStepCountsOneMicrosecond : Obligations.IdleStepCountsOneMicrosecond := by
  intro s hidle
  constructor
  · intro hpow
    rw [step_of_pending_nil hidle, tick_of_powered hpow]
  · intro hoff
    rw [step_of_pending_nil hidle, tick_of_unpowered hoff]

end Sys2Proof.Proofs
end

section
/-! Tempo: the clamp, the smoothing and what a sample makes of the beat period (R11, R12). -/

namespace Sys2Proof.Machine

/-! ### Clamp and smoothing (R12) -/

theorem clampSample_of_low {sample : Nat} (h : sample < 150000) : clampSample sample = 150000 := by
  simp only [clampSample, Config.beatMin, Config.beatMax]; omega

theorem clampSample_of_inside {sample : Nat} (hl : 150000 ≤ sample) (hu : sample ≤ 3000000) :
    clampSample sample = sample := by
  simp only [clampSample, Config.beatMin, Config.beatMax]; omega

theorem clampSample_of_high {sample : Nat} (h : 3000000 < sample) : clampSample sample = 3000000 := by
  simp only [clampSample, Config.beatMin, Config.beatMax]; omega

theorem clampSample_beatSound (sample : Nat) : beatSound (clampSample sample) := by
  simp only [beatSound, clampSample, Config.beatMin, Config.beatMax]; omega

/-- A difference weighted by at most sixteen sixteenths lies between 0 and the whole difference, on its own side. -/
theorem weighted_between (d : Int) (weight : Nat) (h : weight ≤ 16) :
    min 0 d ≤ (d * weight).tdiv 16 ∧ (d * weight).tdiv 16 ≤ max 0 d := by
  have side : ∀ x : Int, 0 ≤ x → 0 ≤ (x * weight).tdiv 16 ∧ (x * weight).tdiv 16 ≤ x := by
    intro x hx
    have low : 0 ≤ x * weight := mul_nonneg hx (Int.natCast_nonneg weight)
    have high : x * weight ≤ x * 16 := mul_le_mul_of_nonneg_left (by exact_mod_cast h) hx
    rw [Int.tdiv_eq_ediv_of_nonneg low]
    omega
  rcases le_total 0 d with hd | hd
  · have := side d hd
    omega
  · have := side (-d) (by omega)
    rw [neg_mul, Int.neg_tdiv] at this
    omega

/-- Smoothing never passes below 0, so it is the formula of R12 over the integers. -/
theorem smoothed_cast (beat sample weight : Nat) (h : weight ≤ 16) :
    (smoothed beat sample weight : Int) = beat + (((sample : Int) - beat) * weight).tdiv 16 := by
  have := weighted_between ((sample : Int) - beat) weight h
  rw [smoothed, Int.toNat_of_nonneg]
  omega

/-- The full weight adopts the sample (R12). -/
theorem smoothed_full (beat sample : Nat) : smoothed beat sample 16 = sample := by
  have := smoothed_cast beat sample 16 le_rfl
  rw [Nat.cast_ofNat, Int.mul_tdiv_cancel _ (by decide)] at this
  omega

/-- Smoothing stays between the beat period and the sample, so it keeps the device range (R12). -/
theorem smoothed_beatSound {beat sample weight : Nat} (h : weight ≤ 16) (hb : beatSound beat) (hs : beatSound sample) :
    beatSound (smoothed beat sample weight) := by
  have between := weighted_between ((sample : Int) - beat) weight h
  have formula := smoothed_cast beat sample weight h
  obtain ⟨hb1, hb2⟩ := hb
  obtain ⟨hs1, hs2⟩ := hs
  constructor <;> omega

/-! ### A sample (R11, R12, R13) -/

section sample
variable {e : EngineConfig} {k : Tracker} {r : Report}

/-- A sample outside the window with RATE enabled is rejected: the run grows and the beat period stays (R11). -/
theorem takeSample_rejected (h : ¬ (e.onRate = false ∨ inWindow k.beat e.rateWindow (rawSample k r) = true)) :
    takeSample e k r = ({ k with basePos := r.pos, baseTime := r.time, rejects := k.rejects + 1 }, true) := by
  rw [not_or, Bool.not_eq_false] at h
  exact if_pos h

/-- Any other sample is clamped and smoothed into the beat period (R12). -/
theorem takeSample_taken (h : e.onRate = false ∨ inWindow k.beat e.rateWindow (rawSample k r) = true) :
    takeSample e k r = ({ k with
      basePos := r.pos, baseTime := r.time, rejects := 0,
      beat := smoothed k.beat (clampSample (rawSample k r)) e.smoothing }, false) := by
  refine if_neg fun ⟨hon, hout⟩ => ?_
  rcases h with h | h
  · rw [h] at hon; cases hon
  · exact hout h

theorem takeSample_beatSound (hw : e.smoothing ≤ 16) (hk : beatSound k.beat) :
    beatSound (takeSample e k r).1.beat := by
  by_cases h : e.onRate = false ∨ inWindow k.beat e.rateWindow (rawSample k r) = true
  · rw [takeSample_taken h]
    exact smoothed_beatSound hw hk (clampSample_beatSound _)
  · rw [takeSample_rejected h]
    exact hk

end sample

end Sys2Proof.Machine

namespace Sys2Proof.Proofs

open Sys2Proof.Machine

/-- Settles O11: a sample is either rejected or smoothed by the formula, and the formula keeps the range. -/
theorem smoothedBeatFollowsTheFormula : Obligations.SmoothedBeatFollowsTheFormula := by
  intro e k r hk _ hw raw out
  have range : beatSound out.1.beat := takeSample_beatSound hw hk
  by_cases h : e.onRate = false ∨ inWindow k.beat e.rateWindow raw = true
  · have passed : out.2 = false := congrArg Prod.snd (takeSample_taken h)
    have beat : out.1.beat = smoothed k.beat (clampSample raw) e.smoothing :=
      congrArg (fun x => x.1.beat) (takeSample_taken h)
    have formula : (out.1.beat : Int) = k.beat + (((clampSample raw : Int) - k.beat) * e.smoothing).tdiv 16 := by
      rw [beat, smoothed_cast _ _ _ hw]
    refine ⟨fun failed => absurd failed (by simp [passed]), iff_of_true passed h,
      fun _ => ⟨fun hl hu => ⟨?_, fun full => ?_⟩, fun hl => ?_, fun hu => ?_⟩, range⟩
    · rw [formula, clampSample_of_inside hl hu]
    · rw [beat, full, clampSample_of_inside hl hu, smoothed_full]
    · rw [formula, clampSample_of_low hl, Nat.cast_ofNat]
    · rw [formula, clampSample_of_high hu, Nat.cast_ofNat]
  · have failed : out.2 = true := congrArg Prod.snd (takeSample_rejected h)
    have beat : out.1.beat = k.beat := congrArg (fun x => x.1.beat) (takeSample_rejected h)
    exact ⟨fun _ => beat, iff_of_false (by simp [failed]) h, fun passed => absurd passed (by simp [failed]), range⟩

end Sys2Proof.Proofs
end

section
/-! The projected position and the arrival answer, case by case (R15, R16). -/

namespace Sys2Proof.Machine

variable {k : Tracker} {h : Nat}

/-! ### Projection (R15) -/

/-- While the source counts, the projection is the least of the elapsed term, the horizon and the highest position. -/
theorem projected_of_tracking (hf : k.follow = .locked ∨ k.follow = .coasting) (now : Time) :
    k.projected h now =
      min (min (k.anchorPos + (now - k.anchorTime).toNat * 480 / k.beat) (k.anchorPos + 480 * h)) Config.positionMax :=
  if_pos hf

/-- In HELD, LOST and IDLE the projection rests at the anchor. -/
theorem projected_of_resting (hf : k.follow = .held ∨ k.follow = .lost ∨ k.follow = .idle) (now : Time) :
    k.projected h now = k.anchorPos := by
  refine if_neg fun tracking => ?_
  rcases hf with hf | hf | hf <;> simp [hf] at tracking

theorem follow_cases (k : Tracker) :
    (k.follow = .locked ∨ k.follow = .coasting) ∨ (k.follow = .held ∨ k.follow = .lost ∨ k.follow = .idle) := by
  cases k.follow <;> simp

/-- The projection lies from the anchor to the horizon and within the positions. -/
theorem projected_bounds (hp : k.anchorPos ≤ Config.positionMax) (now : Time) :
    k.anchorPos ≤ k.projected h now ∧ k.projected h now ≤ min (k.anchorPos + 480 * h) Config.positionMax := by
  rcases follow_cases k with hf | hf
  · rw [projected_of_tracking hf]
    generalize (now - k.anchorTime).toNat * 480 / k.beat = ticks
    omega
  · rw [projected_of_resting hf]; omega

/-! ### Arrival (R16) -/

theorem arrival_of_settle (hs : k.settle = true) (p : Nat) : k.arrival h p = .noTime := if_pos hs

theorem arrival_of_absent (hf : k.follow = .lost ∨ k.follow = .idle) (p : Nat) : k.arrival h p = .noTime := by
  rcases hf with hf | hf <;> simp [Tracker.arrival, hf]

theorem arrival_of_held (hs : k.settle = false) (hf : k.follow = .held) (p : Nat) :
    k.arrival h p = if p ≤ k.anchorPos then .already else .noTime := by
  simp [Tracker.arrival, hs, hf]

theorem arrival_of_tracking (hs : k.settle = false) (hf : k.follow = .locked ∨ k.follow = .coasting) (p : Nat) :
    k.arrival h p =
      if p ≤ k.anchorPos then .reachedAt k.anchorTime
      else if p ≤ k.anchorPos + 480 * h then .reachedAt (later k.anchorTime (ceilDiv ((p - k.anchorPos) * k.beat) 480))
      else .noTime := by
  rcases hf with hf | hf <;> simp [Tracker.arrival, hs, hf]

/-- Some ticks past the anchor are covered after a number of microseconds exactly when that number is at least the
ceiling of R16: multiplying out, both say that the ticks times T are at most 480 times the microseconds. -/
theorem covered_iff_ceil_le {ticks beat us : Nat} (hb : 0 < beat) :
    ticks ≤ us * 480 / beat ↔ (ticks * beat + 479) / 480 ≤ us := by
  rw [Nat.le_div_iff_mul_le hb]
  omega

end Sys2Proof.Machine

namespace Sys2Proof.Proofs

open Sys2Proof.Machine

/-- Settles O12: the two equations of the projection, and the bounds that follow from them. -/
theorem projectionStaysBelowTheHorizon : Obligations.ProjectionStaysBelowTheHorizon :=
  fun _ _ now =>
    ⟨fun hf => projected_of_tracking hf now, fun hf => projected_of_resting hf now, fun hp => projected_bounds hp now⟩

/-- Settles O13: R16's table, and the ceiling as the first time at which the elapsed term reaches the position. -/
theorem arrivalIsWhenTheProjectionReaches : Obligations.ArrivalIsWhenTheProjectionReaches := by
  intro k h p
  refine ⟨fun hs => arrival_of_settle hs p, fun hs => ⟨fun hf => arrival_of_absent hf p, fun hf hp => ?_, fun hf hp => ?_,
    fun hf => ⟨fun hp => ?_, fun hl hu => ?_, fun hp => ?_⟩⟩, fun hb hp us => ?_⟩
  · rw [arrival_of_held hs hf, if_pos hp]
  · rw [arrival_of_held hs hf, if_neg (by omega)]
  · rw [arrival_of_tracking hs hf, if_pos hp]
  · rw [arrival_of_tracking hs hf, if_neg (by omega), if_pos hu]
    rfl
  · rw [arrival_of_tracking hs hf, if_neg (by omega), if_neg (by omega)]
  · rw [← covered_iff_ceil_le hb]
    omega

end Sys2Proof.Proofs
end

section
/-! The report rules, one lemma for each branch: the sequence check (R8), a report taken in LOST and a loss (R24, R25),
and the rules of the other follow states (R9, R14, R18 to R22). -/

namespace Sys2Proof.Machine

/-! ### What the rules speak of -/

/-- The tracker once the sequence check has noted a report's number (R8). -/
def Tracker.seen (k : Tracker) (r : Report) : Tracker := { k with anySeq := false, lastSeq := r.seq }

/-- The tracker that a report losing the source leaves: LOST, and the report its first candidate (R24). -/
def Tracker.lostWith (k : Tracker) (cause : FollowCause) (r : Report) : Tracker :=
  { (k.lostBy cause).rebased r with candidate := true, settle := k.settle || r.jump }

/-- The position a report taken for its JUMP flag seeks (R27). -/
def jumpTarget (r : Report) : Option Nat := if r.jump then some r.pos else none

/-- A report was taken with an event: the tracker it leaves, what it counts as rejected, and the event over both
trackers (R27). -/
def Handed (k : Tracker) (out : Tracked) (rejects : Nat) (kind : ReportKind) (seek : Option Nat) (new : Tracker) : Prop :=
  out.tracker = new ∧ out.rejects = rejects ∧ out.event = some (eventOf kind k new k.follow seek)

/-- A report in LOST continues the candidacy (R25). -/
def continues (k : Tracker) (next : Bool) (r : Report) : Prop :=
  k.candidate = true ∧ next = true ∧ r.hold = false ∧ r.jump = false ∧ k.anchorPos ≤ r.pos

variable {e : EngineConfig} {k : Tracker} {r : Report} {next : Bool}

/-! ### The sequence check (R8) -/

theorem seen_of_checked (h : k.anySeq = false) : { k with lastSeq := r.seq } = k.seen r := by
  rw [Tracker.seen, ← h]

theorem takeReport_of_anySeq (h : k.anySeq = true) : takeReport e k r = takePassed e true (k.seen r) r := if_pos h

/-- A checked report, by its distance from the number expected. -/
theorem takeReport_of_checked (h : k.anySeq = false) :
    takeReport e k r =
      if (r.seq - k.lastSeq - 1).toNat = 0 then takePassed e true (k.seen r) r
      else if (r.seq - k.lastSeq - 1).toNat < 128 then
        if e.onGap ∧ e.gapLimit < (r.seq - k.lastSeq - 1).toNat ∧
            (k.follow = .locked ∨ k.follow = .coasting ∨ k.follow = .held) then
          { loseBy e .gap false (k.seen r) r with gaps := 1 }
        else { takePassed e false (k.seen r) r with gaps := 1 }
      else quiet k := by
  rw [← seen_of_checked h]
  exact if_neg (by simp [h])

theorem takeReport_of_next (h : k.anySeq = false) (hd : (r.seq - k.lastSeq - 1).toNat = 0) :
    takeReport e k r = takePassed e true (k.seen r) r := by
  rw [takeReport_of_checked h, if_pos hd]

theorem takeReport_of_gapLoses (h : gapLoses e k r) :
    takeReport e k r = { loseBy e .gap false (k.seen r) r with gaps := 1 } := by
  obtain ⟨hany, hlow, hhigh, hon, hlimit, hf⟩ := h
  rw [takeReport_of_checked hany, if_neg (by omega), if_pos (by omega), if_pos ⟨hon, hlimit, hf⟩]

theorem takeReport_of_gap (h : k.anySeq = false) (hlow : 1 ≤ (r.seq - k.lastSeq - 1).toNat)
    (hhigh : (r.seq - k.lastSeq - 1).toNat ≤ 127) (hkeep : ¬ gapLoses e k r) :
    takeReport e k r = { takePassed e false (k.seen r) r with gaps := 1 } := by
  rw [takeReport_of_checked h, if_neg (by omega), if_pos (by omega),
    if_neg fun ⟨hon, hlimit, hf⟩ => hkeep ⟨h, hlow, hhigh, hon, hlimit, hf⟩]

theorem takeReport_of_old (h : k.anySeq = false) (hd : 128 ≤ (r.seq - k.lastSeq - 1).toNat) :
    takeReport e k r = quiet k := by
  rw [takeReport_of_checked h, if_neg (by omega), if_neg (by omega)]

/-- A report that passes is taken by follow state; only the count of gaps tells of the check. -/
theorem takeReport_of_passes (h : passes e k r next) :
    ∃ gaps, takeReport e k r = { takePassed e next (k.seen r) r with gaps := gaps } := by
  rcases h with ⟨rfl, hany | hd⟩ | ⟨rfl, hany, hlow, hhigh, hkeep⟩
  · exact ⟨_, takeReport_of_anySeq hany⟩
  · by_cases hany : k.anySeq = true
    · exact ⟨_, takeReport_of_anySeq hany⟩
    · exact ⟨_, takeReport_of_next (Bool.eq_false_iff.2 hany) hd⟩
  · exact ⟨1, takeReport_of_gap hany hlow hhigh hkeep⟩

/-! ### Taken in LOST, and losses (R24, R25) -/

/-- The test with which `takeInLost` begins. -/
theorem continues_iff :
    (k.candidate && next && !r.hold && !r.jump && decide (k.anchorPos ≤ r.pos)) = true ↔ continues k next r := by
  simp [continues, and_assoc]

theorem takeInLost_relocks {before : FollowState} (hc : continues k next r) (hb : k.basePos + 120 ≤ r.pos)
    (hl : Config.beatMin ≤ rawSample k r) (hu : rawSample k r ≤ Config.beatMax) :
    let new := ({ k with beat := rawSample k r, rejects := 0, settle := false }.rebased r).lockedAt e r.time
    takeInLost e before next k r = { quiet new with
      notices := followNotice .lost new .relock r.time
      event := some (eventOf .normal k new before none) } :=
  if_pos ⟨continues_iff.2 hc, hb, hl, hu⟩

theorem takeInLost_extends {before : FollowState} (hc : continues k next r) (hb : r.pos < k.basePos + 120)
    (hp : k.anchorPos < r.pos) :
    let new : Tracker := { k with anchorPos := r.pos, anchorTime := r.time, settle := false }
    takeInLost e before next k r = { quiet new with event := some (eventOf .normal k new before none) } :=
  (if_neg fun h => by have := h.2.1; omega).trans ((if_pos ⟨continues_iff.2 hc, hb⟩).trans (if_pos hp))

theorem takeInLost_repeats {before : FollowState} (hc : continues k next r) (hb : r.pos < k.basePos + 120)
    (hp : r.pos = k.anchorPos) : takeInLost e before next k r = quiet k :=
  (if_neg fun h => by have := h.2.1; omega).trans ((if_pos ⟨continues_iff.2 hc, hb⟩).trans (if_neg (by omega)))

theorem takeInLost_restarts {before : FollowState}
    (h : ¬ continues k next r ∨
      (k.basePos + 120 ≤ r.pos ∧ (rawSample k r < Config.beatMin ∨ Config.beatMax < rawSample k r))) :
    let new := { k with candidate := true, settle := k.settle || r.jump }.rebased r
    takeInLost e before next k r = { quiet new with
      event := some (eventOf (lostKind r) k new before (jumpTarget r)) } := by
  refine (if_neg fun ⟨hc, hb, hl, hu⟩ => ?_).trans (if_neg fun ⟨hc, hb⟩ => ?_)
  · rcases h with h | ⟨-, h⟩
    · exact h (continues_iff.1 hc)
    · omega
  · rcases h with h | ⟨h, -⟩
    · exact h (continues_iff.1 hc)
    · omega

/-- A loss clears the candidacy, so its own report always begins a new one; it keeps the tracker's old anchor and settle
flag for the event (R24). -/
theorem loseBy_handed (cause : FollowCause) :
    Handed k (loseBy e cause next k r) 0 (lostKind r) (jumpTarget r) (k.lostWith cause r) := by
  have begins : ¬ continues (k.lostBy cause) next r := fun h => Bool.false_ne_true h.1
  rw [loseBy, takeInLost_restarts (.inl begins)]
  exact ⟨rfl, rfl, rfl⟩

/-! ### The rules of the other follow states (R9, R14, R18 to R22) -/

theorem takeFirst_handed :
    let new := { k with settle := k.settle || r.jump }.rebased r
    Handed k (takeFirst e k r) 0 (lostKind r) (jumpTarget r) (if r.hold then new.heldNow else new.lockedAt e r.time) :=
  ⟨rfl, rfl, rfl⟩

theorem takeJump_handed :
    let new := { k with settle := true }.rebased r
    Handed k (takeJump e k r) 0 .jump (some r.pos) (if r.hold then new.heldNow else new.lockedAt e r.time) :=
  ⟨rfl, rfl, rfl⟩

theorem takeHold_handed : Handed k (takeHold k r) 0 .hold none (k.rebased r).heldNow := ⟨rfl, rfl, rfl⟩

/-- From the held position on, the settle flag stays exactly at the held position (R22). -/
theorem takeHoldEnd_handed (hp : k.anchorPos ≤ r.pos) :
    Handed k (takeHoldEnd e k r) 0 .holdEnd none
      (({ k with settle := k.settle && decide (r.pos = k.anchorPos) }.rebased r).lockedAt e r.time) := by
  have same : (!decide (k.anchorPos < r.pos)) = decide (r.pos = k.anchorPos) := by
    rw [← decide_not, decide_eq_decide]
    omega
  rw [← same]
  exact ⟨rfl, rfl, rfl⟩

theorem advance_handed (j : Tracker) :
    Handed k (advance e k j r) 0 .normal none
      ({ j with anchorPos := r.pos, anchorTime := r.time, settle := false }.lockedAt e r.time) := ⟨rfl, rfl, rfl⟩

theorem takeNormal_at_anchor (hp : r.pos = k.anchorPos) :
    takeNormal e next k r = quiet { k with silence := some (silenceAt e r.time) } := if_pos hp

theorem takeNormal_short (hp : k.anchorPos < r.pos) (hb : r.pos < k.basePos + 120) :
    takeNormal e next k r = advance e k k r := (if_neg (by omega)).trans (if_neg (by omega))

/-- A report one sample on: rejected, its third rejection in a run losing the source, or taken (R11, R14). -/
theorem takeNormal_sampled (hp : k.anchorPos < r.pos) (hb : k.basePos + 120 ≤ r.pos) :
    takeNormal e next k r =
      if (takeSample e k r).2 then
        if 3 ≤ (takeSample e k r).1.rejects then { loseBy e .rate next (takeSample e k r).1 r with rejects := 1 }
        else { advance e k (takeSample e k r).1 r with rejects := 1 }
      else advance e k (takeSample e k r).1 r := (if_neg (by omega)).trans (if_pos hb)

/-- A rejected sample (R11, R14): counted once; the anchor moves on, or the third in a run loses the source by RATE. -/
theorem takeNormal_rejected (hp : k.anchorPos < r.pos) (hb : k.basePos + 120 ≤ r.pos)
    (hs : ¬ (e.onRate = false ∨ inWindow k.beat e.rateWindow (rawSample k r) = true)) (hj : r.jump = false)
    (hh : r.hold = false) :
    Handed k (takeNormal e next k r) 1 .normal none
      (if 3 ≤ k.rejects + 1 then k.lostWith .rate r
       else ({ k with settle := false, rejects := k.rejects + 1 }.rebased r).lockedAt e r.time) := by
  have lost := loseBy_handed (e := e) (k := (takeSample e k r).1) (r := r) (next := next) .rate
  have rejects : (takeSample e k r).1.rejects = k.rejects + 1 := by rw [takeSample_rejected hs]
  rw [takeNormal_sampled hp hb, if_pos (by rw [takeSample_rejected hs]), rejects]
  rw [takeSample_rejected hs] at lost ⊢
  obtain ⟨hnew, -, hevent⟩ := lost
  simp only [lostKind, jumpTarget, hj, hh, Bool.false_eq_true, if_false] at hevent
  by_cases third : 3 ≤ k.rejects + 1
  · rw [if_pos third, if_pos third]
    exact ⟨hnew, rfl, hevent⟩
  · rw [if_neg third, if_neg third]
    exact ⟨rfl, rfl, rfl⟩

/-- A good sample: the anchor and the sample base move on, and the beat period takes the sample (R12, R14). -/
theorem takeNormal_taken (hp : k.anchorPos < r.pos) (hb : k.basePos + 120 ≤ r.pos)
    (hs : e.onRate = false ∨ inWindow k.beat e.rateWindow (rawSample k r) = true) :
    Handed k (takeNormal e next k r) 0 .normal none
      (({ k with
          settle := false, rejects := 0,
          beat := smoothed k.beat (clampSample (rawSample k r)) e.smoothing }.rebased r).lockedAt e r.time) := by
  rw [takeNormal_sampled hp hb, takeSample_taken hs]
  exact ⟨rfl, rfl, rfl⟩

/-! ### A report that has passed, by follow state (R7, R19) -/

theorem takePassed_idle (hf : k.follow = .idle) : takePassed e next k r = takeFirst e k r := by simp [takePassed, hf]

theorem takePassed_lost (hf : k.follow = .lost) : takePassed e next k r = takeInLost e k.follow next k r := by
  simp [takePassed, hf]

theorem takePassed_jump (hf : following k) (hj : r.jump = true) : takePassed e next k r = takeJump e k r := by
  rcases hf with hf | hf | hf <;> simp [takePassed, hf, hj]

theorem takePassed_backward (hf : following k) (hj : r.jump = false) (hp : r.pos < k.anchorPos) :
    takePassed e next k r = if e.onReverse then loseBy e .reverse next k r else takeJump e k r := by
  rcases hf with hf | hf | hf <;> simp [takePassed, takeBackward, hf, hj, hp]

theorem takePassed_hold (hf : following k) (hj : r.jump = false) (hp : k.anchorPos ≤ r.pos) (hh : r.hold = true) :
    takePassed e next k r = takeHold k r := by
  rcases hf with hf | hf | hf <;> simp [takePassed, hf, hj, hh, Nat.not_lt.2 hp]

theorem takePassed_holdEnd (hf : k.follow = .held) (hj : r.jump = false) (hp : k.anchorPos ≤ r.pos)
    (hh : r.hold = false) : takePassed e next k r = takeHoldEnd e k r := by
  simp [takePassed, hf, hj, hh, Nat.not_lt.2 hp]

theorem takePassed_normal (hf : k.follow = .locked ∨ k.follow = .coasting) (hj : r.jump = false)
    (hp : k.anchorPos ≤ r.pos) (hh : r.hold = false) : takePassed e next k r = takeNormal e next k r := by
  rcases hf with hf | hf <;> simp [takePassed, hf, hj, hh, Nat.not_lt.2 hp]

/-! ### Gaps are counted by the sequence check alone (R8) -/

theorem takeInLost_gaps (before : FollowState) : (takeInLost e before next k r).gaps = 0 := by
  unfold takeInLost
  dsimp only
  split
  · rfl
  · split
    · split <;> rfl
    · rfl

theorem loseBy_gaps (cause : FollowCause) : (loseBy e cause next k r).gaps = 0 := takeInLost_gaps _

theorem takeNormal_gaps : (takeNormal e next k r).gaps = 0 := by
  unfold takeNormal
  dsimp only
  split
  · rfl
  · split
    · split
      · split
        · change (loseBy e .rate next (takeSample e k r).1 r).gaps = 0
          exact loseBy_gaps _
        · rfl
      · rfl
    · rfl

theorem takeBackward_gaps : (takeBackward e next k r).gaps = 0 := by
  unfold takeBackward
  split
  · exact loseBy_gaps _
  · rfl

theorem takePassed_gaps : (takePassed e next k r).gaps = 0 := by
  unfold takePassed
  split
  · rfl
  · exact takeInLost_gaps _
  all_goals
    split
    · rfl
    · split
      · exact takeBackward_gaps
      · split
        · rfl
        · simp only [takeNormal_gaps, takeHoldEnd, quiet]

end Sys2Proof.Machine

namespace Sys2Proof.Proofs

open Sys2Proof.Machine

/-- Settles O15: each clause is the lemma of its branch, carried over the sequence check, which shows only in the count
of gaps. -/
theorem sequenceCheckJudgesReports : Obligations.SequenceCheckJudgesReports := by
  intro e k r next d out seen based locked held lost event flagged jumped tracking raw sampled
  have told : ∀ {rejects kind seek new}, Handed k out rejects kind seek new →
      out.event = event kind seek ∧ out.rejects = rejects ∧ out.tracker = new := by
    rintro rejects kind seek new ⟨rfl, hrejects, hevent⟩
    exact ⟨hevent, hrejects, rfl⟩
  refine ⟨fun hany => ?_, fun hany => ⟨fun hd => ?_, fun hlow hhigh => ?_, fun hd => takeReport_of_old hany hd⟩,
    fun hlost => ?_, fun hpass => ?_⟩
  · exact (congrArg Tracked.gaps (takeReport_of_anySeq hany)).trans takePassed_gaps
  · exact (congrArg Tracked.gaps (takeReport_of_next hany hd)).trans takePassed_gaps
  · by_cases hlost : gapLoses e k r
    · exact congrArg Tracked.gaps (takeReport_of_gapLoses hlost)
    · exact congrArg Tracked.gaps (takeReport_of_gap hany hlow hhigh hlost)
  · have handed : Handed k out 0 flagged jumped (lost .gap) := by
      rw [show out = _ from takeReport_of_gapLoses hlost]
      exact loseBy_handed (e := e) (k := k.seen r) (next := false) .gap
    obtain ⟨hevent, hrejects, hnew⟩ := told handed
    exact ⟨hnew, hevent, hrejects⟩
  obtain ⟨gaps, hout⟩ := takeReport_of_passes hpass
  have taken : ∀ {branch rejects kind seek new}, takePassed e next (k.seen r) r = branch →
      Handed (k.seen r) branch rejects kind seek new →
      out.event = event kind seek ∧ out.rejects = rejects ∧ out.tracker = new := by
    rintro branch rejects kind seek new rfl handed
    exact told (by rw [show out = _ from hout]; exact handed)
  have unheard : ∀ {j}, takePassed e next (k.seen r) r = quiet j →
      out.event = none ∧ out.rejects = 0 ∧ out.tracker = j := by
    intro j hj
    rw [show out = _ from hout, hj]
    exact ⟨rfl, rfl, rfl⟩
  have either : ∀ j : Tracker,
      (if r.hold then j.heldNow else j.lockedAt e r.time) = (if r.hold then held else locked) j := by
    intro j
    cases r.hold <;> rfl
  refine ⟨fun hf => ?_, fun hf hj => ?_, fun hf hj hp hon => ?_, fun hf hj hp hon => ?_, fun hf hj hp hh => ?_,
    fun hf hj hp hh => ?_, fun hf hj hh => ⟨fun hp => ?_, fun hp hb => ?_, fun hp hb hs => ?_, fun hp hb hs => ?_⟩,
    fun hf => ⟨fun hc hb hl hu => ?_, fun hc hb hp => ?_, fun hc hb hp => ?_, fun hc => ?_⟩⟩
  · obtain ⟨hevent, -, hnew⟩ := taken (takePassed_idle hf) takeFirst_handed
    exact ⟨hevent, hnew.trans (either _)⟩
  · obtain ⟨hevent, -, hnew⟩ := taken (takePassed_jump hf hj) takeJump_handed
    exact ⟨hevent, hnew.trans (either _)⟩
  · have branch := takePassed_backward (e := e) (k := k.seen r) (next := next) hf hj hp
    rw [if_neg (by simp [hon])] at branch
    obtain ⟨hevent, -, hnew⟩ := taken branch takeJump_handed
    exact ⟨hevent, hnew.trans (either _)⟩
  · have branch := takePassed_backward (e := e) (k := k.seen r) (next := next) hf hj hp
    rw [if_pos hon] at branch
    obtain ⟨hevent, -, hnew⟩ := taken branch (loseBy_handed .reverse)
    rw [jumpTarget, hj] at hevent
    exact ⟨hevent, hnew⟩
  · obtain ⟨hevent, -, hnew⟩ := taken (takePassed_hold hf hj hp hh) takeHold_handed
    exact ⟨hevent, hnew⟩
  · obtain ⟨hevent, -, hnew⟩ := taken (takePassed_holdEnd hf hj hp hh) (takeHoldEnd_handed hp)
    exact ⟨hevent, hnew⟩
  · exact unheard ((takePassed_normal (k := k.seen r) hf hj hp.ge hh).trans (takeNormal_at_anchor hp))
  · exact taken ((takePassed_normal (k := k.seen r) hf hj hp.le hh).trans (takeNormal_short hp hb)) (advance_handed _)
  · exact taken (takePassed_normal hf hj hp.le hh) (takeNormal_taken hp hb hs)
  · obtain ⟨hevent, hrejects, hnew⟩ := taken (takePassed_normal hf hj hp.le hh) (takeNormal_rejected hp hb hs hj hh)
    exact ⟨hevent, hrejects, fun few => hnew.trans (if_neg (Nat.not_le.2 few)), fun many => hnew.trans (if_pos many)⟩
  · have branch := takeInLost_relocks (e := e) (k := k.seen r) (before := k.follow) hc hb hl hu
    have handed := taken ((takePassed_lost (k := k.seen r) hf).trans branch) ⟨rfl, rfl, rfl⟩
    obtain ⟨hevent, -, hnew⟩ := handed
    exact ⟨hevent, hnew⟩
  · have branch := takeInLost_extends (e := e) (k := k.seen r) (before := k.follow) hc hb hp
    have handed := taken ((takePassed_lost (k := k.seen r) hf).trans branch) ⟨rfl, rfl, rfl⟩
    obtain ⟨hevent, -, hnew⟩ := handed
    exact ⟨hevent, hnew⟩
  · obtain ⟨hevent, -, hnew⟩ := unheard ((takePassed_lost (k := k.seen r) hf).trans (takeInLost_repeats hc hb hp))
    exact ⟨hevent, hnew⟩
  · have branch := takeInLost_restarts (e := e) (k := k.seen r) (next := next) (before := k.follow) hc
    have handed := taken ((takePassed_lost (k := k.seen r) hf).trans branch) ⟨rfl, rfl, rfl⟩
    obtain ⟨hevent, -, hnew⟩ := handed
    exact ⟨hevent, hnew⟩

end Sys2Proof.Proofs
end

section
/-! Every step keeps the beat period, the default of the loaded act and the smoothing weight in their ranges (R5, R6,
R12, R25, R126): the relation `KeepsBeats`, and a lemma for each operation of tracker, show states and store. -/

namespace Sys2Proof.Machine

/-! ### The tracker's beat period through the report rules (R12, R25) -/

section tracker
variable {e : EngineConfig} {k : Tracker} {r : Report} {next : Bool}

/-- A relock adopts only a sample in the device range (R25). -/
theorem takeInLost_beatSound (before : FollowState) (hk : beatSound k.beat) :
    beatSound (takeInLost e before next k r).tracker.beat := by
  unfold takeInLost
  dsimp only
  split
  · next h => exact ⟨h.2.2.1, h.2.2.2⟩
  · split
    · split <;> exact hk
    · exact hk

theorem loseBy_beatSound (cause : FollowCause) (hk : beatSound k.beat) :
    beatSound (loseBy e cause next k r).tracker.beat := takeInLost_beatSound _ hk

theorem takeFirst_beatSound (hk : beatSound k.beat) : beatSound (takeFirst e k r).tracker.beat := by
  rw [takeFirst_handed.1]
  split <;> exact hk

theorem takeJump_beatSound (hk : beatSound k.beat) : beatSound (takeJump e k r).tracker.beat := by
  rw [takeJump_handed.1]
  split <;> exact hk

theorem takeBackward_beatSound (hk : beatSound k.beat) : beatSound (takeBackward e next k r).tracker.beat := by
  unfold takeBackward
  split
  · exact loseBy_beatSound _ hk
  · exact takeJump_beatSound hk

theorem takeNormal_beatSound (hw : e.smoothing ≤ 16) (hk : beatSound k.beat) :
    beatSound (takeNormal e next k r).tracker.beat := by
  have sampled : beatSound (takeSample e k r).1.beat := takeSample_beatSound hw hk
  unfold takeNormal
  dsimp only
  split
  · exact hk
  · split
    · split
      · split
        · exact loseBy_beatSound (e := e) (next := next) .rate sampled
        · exact sampled
      · exact sampled
    · exact hk

theorem takePassed_beatSound (hw : e.smoothing ≤ 16) (hk : beatSound k.beat) :
    beatSound (takePassed e next k r).tracker.beat := by
  by_cases hf : following k
  · by_cases hj : r.jump = true
    · rw [takePassed_jump hf hj]
      exact takeJump_beatSound hk
    rw [Bool.not_eq_true] at hj
    rcases Nat.lt_or_ge r.pos k.anchorPos with hp | hp
    · rw [takePassed_backward hf hj hp]
      exact takeBackward_beatSound hk
    by_cases hh : r.hold = true
    · rw [takePassed_hold hf hj hp hh]
      exact hk
    rw [Bool.not_eq_true] at hh
    rcases hf with hf | hf | hf
    · rw [takePassed_normal (.inl hf) hj hp hh]
      exact takeNormal_beatSound hw hk
    · rw [takePassed_normal (.inr hf) hj hp hh]
      exact takeNormal_beatSound hw hk
    · rw [takePassed_holdEnd hf hj hp hh]
      exact hk
  · rcases follow_cases k with (h | h) | (h | h | h)
    · exact absurd (.inl h) hf
    · exact absurd (.inr (.inl h)) hf
    · exact absurd (.inr (.inr h)) hf
    · rw [takePassed_lost h]
      exact takeInLost_beatSound _ hk
    · rw [takePassed_idle h]
      exact takeFirst_beatSound hk

theorem takeReport_beatSound (hw : e.smoothing ≤ 16) (hk : beatSound k.beat) :
    beatSound (takeReport e k r).tracker.beat := by
  by_cases hany : k.anySeq = true
  · rw [takeReport_of_anySeq hany]
    exact takePassed_beatSound hw hk
  · rw [takeReport_of_checked (Bool.eq_false_iff.2 hany)]
    split
    · exact takePassed_beatSound hw hk
    · split
      · split
        · exact loseBy_beatSound (e := e) (k := k.seen r) (next := false) .gap hk
        · exact takePassed_beatSound (k := k.seen r) hw hk
      · exact hk

theorem silenceExpired_beat (d : Time) : (silenceExpired e k d).1.beat = k.beat := by
  unfold silenceExpired
  split <;> rfl

theorem horizonExpired_beat (d : Time) : (horizonExpired k d).1.beat = k.beat := by
  unfold horizonExpired
  dsimp only
  split <;> rfl

end tracker

/-! ### The relation -/

/-- What led from s to t keeps the beat values in range. -/
def KeepsBeats (s t : State) : Prop := beatsSound s → beatsSound t

theorem KeepsBeats.refl (s : State) : KeepsBeats s s := id

theorem KeepsBeats.trans {s t u : State} (h : KeepsBeats s t) (k : KeepsBeats t u) : KeepsBeats s u := fun hs => k (h hs)

/-- The same, the second part first: what it starts from then needs no name. -/
theorem KeepsBeats.after {s t u : State} (k : KeepsBeats t u) (h : KeepsBeats s t) : KeepsBeats s u := h.trans k

/-- The three values as before. -/
theorem KeepsBeats.of_eq {s t : State} (hk : t.tracker.beat = s.tracker.beat) (ht : t.table.beat = s.table.beat)
    (hw : t.config.engine.smoothing = s.config.engine.smoothing) : KeepsBeats s t := by
  intro hs
  rw [beatsSound, hk, ht, hw]
  exact hs

/-- The tracker replaced by one whose beat period is sound. -/
theorem KeepsBeats.withTracker {s : State} {k : Tracker} (hk : beatsSound s → beatSound k.beat) :
    KeepsBeats s (s.withTracker k) := fun hs => ⟨hk hs, hs.2⟩

theorem withStore_keepsBeats (s : State) (x : Store) : KeepsBeats s (s.withStore x) := id
theorem withManagement_keepsBeats (s : State) (x : Management) : KeepsBeats s (s.withManagement x) := id
theorem withTools_keepsBeats (s : State) (x : Tools) : KeepsBeats s (s.withTools x) := id

/-- Whatever keeps to a fire's width keeps the beat values. -/
theorem FiresOnly.keepsBeats {s t : State} (h : FiresOnly s t) : KeepsBeats s t := by
  obtain ⟨-, -, -, hconfig, -, -⟩ := h.outside
  obtain ⟨htracker, htable⟩ := h.score
  exact .of_eq (by rw [htracker]) (by rw [htable]) (by rw [hconfig])

theorem ReadsOnly.keepsBeats {s t : State} (h : ReadsOnly s t) : KeepsBeats s t := by
  obtain ⟨_, _, _, h⟩ := h
  exact h.toFiresOnly.keepsBeats

theorem atMoment_keepsBeats (m : Moment) (s : State) : KeepsBeats s (atMoment m s) := (atMoment_only m s).keepsBeats

theorem offerHalves_keepsBeats (s : State) : KeepsBeats s (offerHalves s) := (offerHalves_only s).toFiresOnly.keepsBeats

theorem forChannels_keepsBeats (f : Fin 8 → State → State) (h : ∀ n s, KeepsBeats s (f n s)) (s : State) :
    KeepsBeats s (forChannels f s) :=
  forChannels_keeps KeepsBeats .refl (fun _ _ _ => .trans) f h s

/-- The beat values a reset takes are in range (R5, R29). -/
theorem poweredUp_beatsSound (straps : BitVec 4) (cells : Cells) (protection : BitVec 8) :
    beatsSound (State.poweredUp straps cells protection) :=
  ⟨(⟨by decide, by decide⟩ : beatSound 1000000), fun _ h => (nomatch h), (by decide : 1 ≤ 4), (by decide : 4 ≤ 16)⟩

/-! ### Reports, deadlines and resets of the tracker (R5, R7, R17, R23) -/

theorem takePos_keepsBeats (seq : Byte) (payload : List Byte) (s : State) : KeepsBeats s (takePos seq payload s) := by
  unfold takePos
  split
  · exact .refl s
  · exact (KeepsBeats.withTracker fun hs => takeReport_beatSound hs.2.2.2 hs.1).trans (track_only _ s).keepsBeats

theorem silenceExpiry_keepsBeats (s : State) : KeepsBeats s (silenceExpiry s) := by
  unfold silenceExpiry
  split
  · split
    · refine (KeepsBeats.withTracker fun hs => ?_).trans (trackDeadline_only _ s).keepsBeats
      rw [silenceExpired_beat]
      exact hs.1
    · exact .refl s
  · exact .refl s

theorem horizonExpiry_keepsBeats (s : State) : KeepsBeats s (horizonExpiry s) := by
  unfold horizonExpiry
  split
  · split
    · refine (KeepsBeats.withTracker fun hs => ?_).trans (trackDeadline_only _ s).keepsBeats
      rw [horizonExpired_beat]
      exact hs.1
    · exact .refl s
  · exact .refl s

theorem resetTracker_keepsBeats {beat : Nat} {s : State} (hb : beatsSound s → beatSound beat) :
    KeepsBeats s (resetTracker beat s) :=
  (resetTracker_only beat s).toFiresOnly.keepsBeats.after (KeepsBeats.withTracker hb)

/-! ### Changes of show state (R136 to R141) -/

theorem resumeShow_keepsBeats (cause : ShowCause) (tag : Option Byte) (s : State) :
    KeepsBeats s (resumeShow cause tag s) :=
  KeepsBeats.trans (t := setShow .run s) id (resumeShow_only cause tag s).keepsBeats

/-- STOP takes the loaded act's default, or keeps the beat period where there is none (R5). -/
theorem stopShow_keepsBeats (tag : Byte) (s : State) : KeepsBeats s (stopShow tag s) := by
  unfold stopShow
  extract_lets previous s1 s2 src s3
  have h1 : KeepsBeats s s1 := by
    refine KeepsBeats.trans (t := setShow .preset s) id (resetTracker_keepsBeats fun hs => ?_)
    cases hb : s.table.beat with
    | none => exact hs.1
    | some b => exact hs.2.1 b hb
  have h2 : KeepsBeats s s2 := h1
  have h3 : KeepsBeats s s3 := (stage_only _).toFiresOnly.keepsBeats.after h2
  exact (h3.trans (emptyChannels_only _ _).toFiresOnly.keepsBeats).trans (showNotice_only _ _ _ _).toFiresOnly.keepsBeats

/-- UNLOAD keeps the beat period and empties the table (R5, R29). -/
theorem unloadShow_keepsBeats (tag : Byte) (s : State) : KeepsBeats s (unloadShow tag s) := by
  unfold unloadShow
  extract_lets previous src₁ s1 s2 src₂ s3 s4 s5 src₃ s6
  have h1 : KeepsBeats s s1 := (resetTracker_keepsBeats (s := s.withControl _) fun hs => hs.1).after id
  have empty : s4.table.beat = none := rfl
  have h4 : KeepsBeats s s4 := by
    intro hs
    obtain ⟨hbeat, -, hweight⟩ := h1 hs
    exact ⟨hbeat, fun b hb => absurd (empty.symm.trans hb) (by simp), hweight⟩
  have h5 : KeepsBeats s s5 := (emptyChannels_only _ _).toFiresOnly.keepsBeats.after h4
  have h6 : KeepsBeats s s6 := h5.trans (withStore_keepsBeats _ _)
  exact (showNotice_only _ _ _ _).toFiresOnly.keepsBeats.after h6

theorem darkCaption_keepsBeats (n : Fin 8) (s : State) : KeepsBeats s (darkCaption n s) := by
  unfold darkCaption
  dsimp only
  split
  · exact ((CaptionsOnly.channel s n _).trans (putCaption_only _ _).toCaptionsOnly).toFiresOnly.keepsBeats
  · exact .refl s

theorem restarted_keepsBeats (s : State) : KeepsBeats s (restarted s) := by
  have fresh := poweredUp_beatsSound s.straps s.store.cells s.store.protection
  exact fun hs => ⟨fresh.1, fresh.2.1, hs.2.2⟩

theorem restartEffect_keepsBeats (s : State) : KeepsBeats s (restartEffect s) := by
  have dark : KeepsBeats s (forChannels darkCaption (restarted s)) :=
    (restarted_keepsBeats s).trans (forChannels_keepsBeats _ darkCaption_keepsBeats _)
  unfold restartEffect
  dsimp only
  split
  · split
    · exact dark
    · exact dark.trans (showNotice_only _ _ _ _).toFiresOnly.keepsBeats
  · exact .refl s

theorem takeGo_keepsBeats (payload : List Byte) (s : State) : KeepsBeats s (takeGo payload s) := by
  have ignored := fun target back => (ignoreGo_only .state target back (found s) s).toFiresOnly.keepsBeats
  unfold takeGo
  dsimp only
  split
  · exact (goInRun_only _ _ _ s).keepsBeats
  · split
    · exact (resumeShow_keepsBeats _ _ s).trans (goInRun_only _ _ _ _).keepsBeats
    · exact ignored _ _
  · exact ignored _ _
  · exact ignored _ _

/-! ### The load (R126, R127) -/

/-- Check 4 of R126 lets only a beat period in the device range pass. -/
theorem headerOf_beatSound {image : List Byte} {cues : Nat} {h : ImageHeader} (hh : headerOf image cues = some h) :
    beatSound h.beat := by
  unfold headerOf at hh
  dsimp only at hh
  split at hh
  · next checks =>
    obtain ⟨-, -, -, -, hl, hu, -⟩ := checks
    rw [← Option.some.inj hh]
    exact ⟨hl, hu⟩
  · cases hh

theorem imageEnd_beatSound {image : List Byte} {d : DirEntry} {region : Region} {langs : List Code} {beat : Nat}
    {cues : List Cue} (h : imageEnd image d = .success region langs beat cues) : beatSound beat := by
  unfold imageEnd at h
  split at h
  · cases h
  · next header =>
    split at h
    · cases h
    · cases h
      exact headerOf_beatSound header

theorem loadEnd_beatSound {cells : Cells} {act : Nat} {region : Region} {langs : List Code} {beat : Nat}
    {cues : List Cue} (h : loadEnd cells act = .success region langs beat cues) : beatSound beat := by
  unfold loadEnd at h
  split at h
  · cases h
  · split at h
    · cases h
    · split at h
      · cases h
      · exact imageEnd_beatSound h

theorem opDone_keepsBeats (op : OpName) (tag : Byte) (result : DoneResult) (data : List Byte) (s : State) :
    KeepsBeats s (opDone op tag result data s) := (opDone_only op tag result data s).toFiresOnly.keepsBeats

theorem loadFails_keepsBeats (tag : Byte) (result : DoneResult) (data : List Byte) (s : State) :
    KeepsBeats s (loadFails tag result data s) := (opDone_keepsBeats _ _ _ _ _).after id

theorem loadSucceeds_keepsBeats (tag : Byte) (act : Nat) (region : Region) (langs : List Code) {beat : Nat}
    (cues : List Cue) (hb : beatSound beat) (s : State) :
    KeepsBeats s (loadSucceeds tag act region langs beat cues s) := by
  have placed : KeepsBeats s (actPlaced act region langs beat cues s) :=
    fun hs => ⟨hb, fun b h => Option.some.inj h ▸ hb, hs.2.2⟩
  exact (((placed.trans (opDone_keepsBeats _ _ _ _ _)).trans (emptyChannels_only _ _).toFiresOnly.keepsBeats).trans
    (stage_only _).toFiresOnly.keepsBeats).trans (showNotice_only _ _ _ _).toFiresOnly.keepsBeats

theorem loadEnds_keepsBeats (tag : Byte) (act : Nat) {finish : LoadEnd}
    (hb : ∀ region langs beat cues, finish = .success region langs beat cues → beatSound beat) (s : State) :
    KeepsBeats s (loadEnds tag act finish s) := by
  cases finish with
  | success region langs beat cues => exact loadSucceeds_keepsBeats tag act region langs cues (hb _ _ _ _ rfl) s
  | noAct => exact loadFails_keepsBeats _ _ _ s
  | corrupt index => exact loadFails_keepsBeats _ _ _ s
  | check => exact loadFails_keepsBeats _ _ _ s
  | ecc a => exact loadFails_keepsBeats _ _ _ s

/-! ### The other store operations (R114 to R130) -/

theorem finishReads_keepsBeats (reader : Reader) {finish : Option Nat → State → State}
    (hf : ∀ failure s, KeepsBeats s (finish failure s)) (s : State) : KeepsBeats s (finishReads reader finish s) := by
  unfold finishReads
  dsimp only
  split
  · exact .refl s
  · exact (readOn_only _ _ s).keepsBeats.trans ((hf _ _).after id)

theorem loadCompleted_keepsBeats (s : State) : KeepsBeats s (loadCompleted s) := by
  unfold loadCompleted
  split
  · refine finishReads_keepsBeats _ (fun failure t => loadEnds_keepsBeats _ _ (fun _ _ _ _ h => ?_) t) s
    cases failure with
    | none => exact loadEnd_beatSound h
    | some a => cases h
  · exact .refl s

theorem verifyCompleted_keepsBeats (s : State) : KeepsBeats s (verifyCompleted s) := by
  unfold verifyCompleted
  split
  · refine finishReads_keepsBeats _ (fun failure t => ?_) s
    unfold verifyDone
    split <;> exact opDone_keepsBeats _ _ _ _ _
  · exact .refl s

theorem checksumCompleted_keepsBeats (s : State) : KeepsBeats s (checksumCompleted s) := by
  unfold checksumCompleted
  split
  · refine finishReads_keepsBeats _ (fun failure t => ?_) s
    unfold checksumDone
    split <;> exact opDone_keepsBeats _ _ _ _ _
  · exact .refl s

theorem programCompleted_keepsBeats (s : State) : KeepsBeats s (programCompleted s) := by
  unfold programCompleted
  split
  · exact (opDone_keepsBeats _ _ _ _ _).after id
  · exact .refl s

theorem eraseCompleted_keepsBeats (s : State) : KeepsBeats s (eraseCompleted s) := by
  unfold eraseCompleted
  split
  · split
    · exact .refl s
    · exact (opDone_keepsBeats _ _ _ _ _).after id
  · exact .refl s

theorem protectionCompleted_keepsBeats (s : State) : KeepsBeats s (protectionCompleted s) := by
  unfold protectionCompleted
  split
  · exact (opDone_keepsBeats _ _ _ _ _).after id
  · exact (opDone_keepsBeats _ _ _ _ _).after id
  · exact .refl s

theorem checkReads_keepsBeats (s : State) : KeepsBeats s (checkReads s) := (readUnits_only _ _ s).keepsBeats

theorem takeReadEnd_keepsBeats (r : StagingRead) (failure : Option Nat) (text : TitleText) (s : State) :
    KeepsBeats s (takeReadEnd r failure text s) := by
  have delivered : ∀ result, KeepsBeats s (deliverAwaited r.key result s) := fun result => by
    unfold deliverAwaited
    split
    · exact .refl s
    · refine (forChannels_keepsBeats _ (fun n t => ?_) _).after id
      split
      · exact (deliver_only _ _ n t).toFiresOnly.keepsBeats
      · exact .refl t
  have kept : ∀ result, KeepsBeats s (keepResult r result (deliverAwaited r.key result s)) := fun result => by
    unfold keepResult
    split
    · exact KeepsBeats.after id (delivered result)
    · exact delivered result
  unfold takeReadEnd
  cases failure with
  | none => exact kept _
  | some a =>
    dsimp only
    split
    · exact (kept _).trans (notify_only _ _).toFiresOnly.keepsBeats
    · exact kept _

theorem stagingReadEnded_keepsBeats (s : State) : KeepsBeats s (stagingReadEnded s) := by
  unfold stagingReadEnded
  split
  · split
    · have left := fun units =>
        (leaveQueue_only _).toFiresOnly.keepsBeats.after (readUnits_only .staging units s).keepsBeats
      exact (stage_only _).toFiresOnly.keepsBeats.after ((takeReadEnd_keepsBeats _ _ _ _).after (left _))
    · exact .refl s
  · exact .refl s

end Sys2Proof.Machine
end

section
/-! The beat values through configuration, tools, requests and frames, and through every step (R6, R166, R167). -/

namespace Sys2Proof.Machine

/-! ### Configuration (R166, R167) -/

/-- The smoothing weight lies in its range (R6). -/
def weightSound (c : Configuration) : Prop := 1 ≤ c.engine.smoothing ∧ c.engine.smoothing ≤ 16

/-- Only the smoothing item itself changes the weight, and its range is the weight's (R6, R166). -/
theorem give_weightSound {c : Configuration} {item : ConfigItem} {v : Nat} (hv : item.inRange v = true)
    (hc : weightSound c) : weightSound (c.give item v) := by
  cases item with
  | channel n item => exact hc
  | language l item => exact hc
  | engine item =>
    cases item with
    | smoothing =>
      simp only [ConfigItem.inRange, ConfigItem.range, Bool.and_true, Bool.and_eq_true] at hv
      obtain ⟨hl, hu⟩ := hv
      exact ⟨of_decide_eq_true hl, of_decide_eq_true hu⟩
    | _ => exact hc

theorem applyPair_weightSound {c : Configuration} {p : ConfigPair} (hp : pairInRange p = true) (hc : weightSound c) :
    weightSound (applyPair c p) := by
  unfold applyPair
  unfold pairInRange at hp
  split
  · next item hitem =>
    rw [hitem] at hp
    exact give_weightSound hp hc
  · exact hc

/-- A list whose values are all in range leaves the weight in its range (R167). -/
theorem applyPairs_weightSound {c : Configuration} {pairs : List ConfigPair}
    (hp : ∀ p ∈ pairs, pairInRange p = true) (hc : weightSound c) : weightSound (applyPairs c pairs) := by
  induction pairs generalizing c with
  | nil => exact hc
  | cons p rest ih =>
    exact ih (fun q hq => hp q (List.mem_cons_of_mem _ hq)) (applyPair_weightSound (hp p List.mem_cons_self) hc)

theorem endTest_keepsBeats (r : TestRecord) (cause : DoneResult) (s : State) : KeepsBeats s (endTest r cause s) :=
  (endTest_only r cause s).toFiresOnly.keepsBeats.after (withTools_keepsBeats _ _)

theorem channelDisabled_keepsBeats (n : Fin 8) (s : State) : KeepsBeats s (channelDisabled n s) := by
  unfold channelDisabled
  extract_lets s1 s2
  have h2 : KeepsBeats s s2 := id
  split
  · split
    · exact (endTest_keepsBeats _ _ _).after h2
    · exact h2
  · exact h2

theorem channelChanged_keepsBeats (old : Configuration) (n : Fin 8) (s : State) :
    KeepsBeats s (channelChanged old n s) := by
  unfold channelChanged
  extract_lets a b s1 src s2
  have h1 : KeepsBeats s s1 := by
    unfold s1
    split
    · exact channelDisabled_keepsBeats n s
    · exact .refl s
  have h2 : KeepsBeats s s2 := by
    unfold s2
    split
    · exact (CaptionsOnly.channel s1 n _).toFiresOnly.keepsBeats.after h1
    · exact h1
  split
  · exact (writeCaption_only n s2).toFiresOnly.keepsBeats.after h2
  · exact h2

theorem configTaken_keepsBeats {pairs : List ConfigPair} (hp : ∀ p ∈ pairs, pairInRange p = true) (s : State) :
    KeepsBeats s (configTaken pairs s) := by
  unfold configTaken
  extract_lets old s1 src s2 s3
  have h1 : KeepsBeats s s1 := fun hs => ⟨hs.1, hs.2.1, applyPairs_weightSound hp hs.2.2⟩
  have h2 : KeepsBeats s s2 := by
    unfold s2
    split
    · exact (withManagement_keepsBeats _ _).after h1
    · exact h1
  have h3 : KeepsBeats s s3 := (forChannels_keepsBeats _ (channelChanged_keepsBeats old) s2).after h2
  split
  · exact (arm_only s3).keepsBeats.after h3
  · exact h3

/-! ### Tools (R174 to R180) -/

theorem withTest_keepsBeats (r : TestRecord) (s : State) : KeepsBeats s (withTest r s) := withTools_keepsBeats s _

theorem offerTool_keepsBeats (t : ToolFrame) (s : State) : KeepsBeats s (offerTool t s) :=
  (offerTool_only t s).toFiresOnly.keepsBeats

theorem takeAnswer_keepsBeats (source : Byte) (payload : List Byte) (s : State) :
    KeepsBeats s (takeAnswer source payload s) := by
  unfold takeAnswer
  dsimp only
  split
  · split
    · exact .refl s
    · split
      · exact withTools_keepsBeats s _
      · split
        · exact withTools_keepsBeats s _
        · exact withTools_keepsBeats s _
  · exact .refl s

theorem markPresent_keepsBeats (n : Fin 8) (s : State) : KeepsBeats s (markPresent n s) := by
  unfold markPresent
  split
  · exact (CaptionsOnly.channel s n _).toFiresOnly.keepsBeats
  · exact .refl s

theorem censusExpired_keepsBeats (s : State) : KeepsBeats s (censusExpired s) := by
  unfold censusExpired
  split
  · split
    · have marked := forChannels_keepsBeats _ markPresent_keepsBeats s
      have left := fun x => (leaveTool_only _).toFiresOnly.keepsBeats.after ((withTools_keepsBeats _ x).after marked)
      exact (notify_only _ _).toFiresOnly.keepsBeats.after (left _)
    · exact .refl s
  · exact .refl s

theorem testFrameSent_keepsBeats (s : State) : KeepsBeats s (testFrameSent s) := by
  unfold testFrameSent
  split
  · split <;> exact withTest_keepsBeats _ s
  · exact .refl s

theorem testGapExpired_keepsBeats (s : State) : KeepsBeats s (testGapExpired s) := by
  unfold testGapExpired
  split
  · split
    · exact (offerTool_keepsBeats _ _).after (withTest_keepsBeats _ s)
    · exact .refl s
  · exact .refl s

theorem addErrors_keepsBeats (d : Nat) (s : State) : KeepsBeats s (addErrors d s) := by
  unfold addErrors
  split
  · split
    · exact withTest_keepsBeats _ s
    · exact (foldl_keeps KeepsBeats .refl (fun _ _ _ => .trans) _
        (fun t _ => (notify_only _ t).toFiresOnly.keepsBeats) _ _).after (withTest_keepsBeats _ s)
  · exact .refl s

theorem takeEcho_keepsBeats (payload : List Byte) (s : State) : KeepsBeats s (takeEcho payload s) := by
  unfold takeEcho
  split
  · dsimp only
    split
    · exact .refl s
    · split
      · exact (addErrors_keepsBeats _ _).after (withTest_keepsBeats _ s)
      · exact (addErrors_keepsBeats _ _).after (withTest_keepsBeats _ s)
  · exact .refl s

theorem testCompleted_keepsBeats (s : State) : KeepsBeats s (testCompleted s) := by
  unfold testCompleted
  split
  · split
    · exact endTest_keepsBeats _ _ s
    · exact .refl s
  · exact .refl s

/-! ### Requests, by the block that answers (R164) -/

/-- The state a reply leaves. -/
def Reply.left : Reply → State
  | .answer s _ _ => s
  | .waiting s => s

theorem refuse_left (s : State) (result : Result) : (refuse s result).left = s := by cases result <;> rfl

theorem refuse_keepsBeats (s : State) (result : Result) : KeepsBeats s (refuse s result).left := by
  rw [refuse_left]
  exact .refl s

theorem answer_keepsBeats {s t : State} (result : Result) (data : List Byte) (h : KeepsBeats s t) :
    KeepsBeats s (Reply.answer t result data).left := h

/-- A check that decides between two replies, each of which keeps the beat values. -/
theorem check_keepsBeats {s : State} {check : Prop} [Decidable check] {a b : Reply} (ha : KeepsBeats s a.left)
    (hb : KeepsBeats s b.left) : KeepsBeats s (if check then a else b).left := by
  split
  · exact ha
  · exact hb

theorem accept_keepsBeats (op : StoreOp) (tag : Byte) (s : State) : KeepsBeats s (accept op tag s).left :=
  withStore_keepsBeats s _

theorem doSetConfig_keepsBeats (pairs : List ConfigPair) (s : State) : KeepsBeats s (doSetConfig pairs s).left := by
  unfold doSetConfig
  refine check_keepsBeats (refuse_keepsBeats s _) ?_
  split
  · exact answer_keepsBeats _ _ (.refl s)
  · next inRange =>
    rw [List.findIdx?_eq_none_iff] at inRange
    exact check_keepsBeats (refuse_keepsBeats s _) <| check_keepsBeats (refuse_keepsBeats s _) <|
      answer_keepsBeats _ _ <| configTaken_keepsBeats (fun p hp => by simpa using inRange p hp) s

theorem doCommitConfig_keepsBeats (s : State) : KeepsBeats s (doCommitConfig s).left := by
  unfold doCommitConfig
  split
  · exact .refl s
  · exact withManagement_keepsBeats s _

theorem doLoadAct_keepsBeats (tag act : Byte) (s : State) : KeepsBeats s (doLoadAct tag act s).left :=
  check_keepsBeats (refuse_keepsBeats s _) <| check_keepsBeats (refuse_keepsBeats s _) <|
    check_keepsBeats (refuse_keepsBeats s _) <| check_keepsBeats (refuse_keepsBeats s _) <|
    (accept_keepsBeats _ _ _).after id

theorem doStart_keepsBeats (tag force : Byte) (s : State) : KeepsBeats s (doStart tag force s).left :=
  check_keepsBeats (refuse_keepsBeats s _) <| check_keepsBeats (refuse_keepsBeats s _) <|
    check_keepsBeats (answer_keepsBeats _ _ (.refl s)) <| answer_keepsBeats _ _ <|
    (arm_only _).keepsBeats.after ((showNotice_only _ _ _ _).toFiresOnly.keepsBeats.after id)

theorem doHold_keepsBeats (tag : Byte) (s : State) : KeepsBeats s (doHold tag s).left :=
  check_keepsBeats (refuse_keepsBeats s _) <| answer_keepsBeats _ _ <|
    (showNotice_only _ _ _ _).toFiresOnly.keepsBeats.after id

theorem doResume_keepsBeats (tag : Byte) (s : State) : KeepsBeats s (doResume tag s).left :=
  check_keepsBeats (refuse_keepsBeats s _) <| answer_keepsBeats _ _ <| resumeShow_keepsBeats _ _ s

theorem doStop_keepsBeats (tag : Byte) (s : State) : KeepsBeats s (doStop tag s).left :=
  check_keepsBeats (refuse_keepsBeats s _) <| answer_keepsBeats _ _ <| stopShow_keepsBeats tag s

theorem doUnload_keepsBeats (tag confirm : Byte) (s : State) : KeepsBeats s (doUnload tag confirm s).left :=
  check_keepsBeats (refuse_keepsBeats s _) <| check_keepsBeats (refuse_keepsBeats s _) <|
    answer_keepsBeats _ _ <| unloadShow_keepsBeats tag s

theorem doSetPointer_keepsBeats (label : Label) (s : State) : KeepsBeats s (doSetPointer label s).left := by
  unfold doSetPointer
  split
  · exact refuse_keepsBeats s _
  · split
    · exact refuse_keepsBeats s _
    · exact (((FiresOnly.firings s _).trans (placePointer_only _ _)).trans (flush_only _)).keepsBeats

theorem placeMessage_keepsBeats (tag : Byte) (level : Level) (set : ChannelSet) (duration : Nat) (text : List Byte)
    (s : State) : KeepsBeats s (placeMessage tag level set duration text s) :=
  (tellChannels_only _ _ _).toFiresOnly.keepsBeats.after id

theorem doShowMessage_keepsBeats (tag confirm level mask : Byte) (duration : BitVec 16) (text : List Byte) (s : State) :
    KeepsBeats s (doShowMessage tag confirm level mask duration text s).left := by
  unfold doShowMessage
  split
  · exact refuse_keepsBeats s _
  · refine check_keepsBeats (refuse_keepsBeats s _) <| check_keepsBeats (refuse_keepsBeats s _) <|
      check_keepsBeats (refuse_keepsBeats s _) <| check_keepsBeats (refuse_keepsBeats s _) <| answer_keepsBeats _ _ ?_
    split
    · exact .refl s
    · exact placeMessage_keepsBeats _ _ _ _ _ s

theorem doClearMessage_keepsBeats (confirm level mask : Byte) (s : State) :
    KeepsBeats s (doClearMessage confirm level mask s).left := by
  unfold doClearMessage
  split
  · exact refuse_keepsBeats s _
  · exact check_keepsBeats (refuse_keepsBeats s _) <| check_keepsBeats (refuse_keepsBeats s _) <|
      answer_keepsBeats _ _ <| (tellChannels_only _ _ _).toFiresOnly.keepsBeats.after id

theorem messageExpired_keepsBeats (i : Nat) (s : State) : KeepsBeats s (messageExpired i s) := by
  unfold messageExpired
  split
  · exact .refl s
  · split
    · exact .refl s
    · split
      · exact (tellChannels_only _ _ _).toFiresOnly.keepsBeats.after ((notify_only _ _).toFiresOnly.keepsBeats.after id)
      · exact .refl s

theorem doReadStore_keepsBeats (address : BitVec 32) (length : Byte) (s : State) :
    KeepsBeats s (doReadStore address length s).left :=
  check_keepsBeats (refuse_keepsBeats s _) <| check_keepsBeats (refuse_keepsBeats s _) <|
    check_keepsBeats (refuse_keepsBeats s _) (joinQueue_only _ s).toFiresOnly.keepsBeats

theorem doProgramStore_keepsBeats (tag : Byte) (address : BitVec 32) (data : List Byte) (s : State) :
    KeepsBeats s (doProgramStore tag address data s).left := by
  have checked := checkReads_keepsBeats s
  exact check_keepsBeats (refuse_keepsBeats s _) <| check_keepsBeats (refuse_keepsBeats s _) <|
    check_keepsBeats ((refuse_keepsBeats _ _).after checked) <|
    check_keepsBeats ((refuse_keepsBeats _ _).after checked) ((accept_keepsBeats _ _ _).after checked)

theorem doEraseSector_keepsBeats (tag : Byte) (sector : BitVec 16) (s : State) :
    KeepsBeats s (doEraseSector tag sector s).left := by
  have checked := checkReads_keepsBeats s
  exact check_keepsBeats (refuse_keepsBeats s _) <| check_keepsBeats (refuse_keepsBeats s _) <|
    check_keepsBeats ((refuse_keepsBeats _ _).after checked)
      ((accept_keepsBeats _ _ _).after ((withStore_keepsBeats _ _).after checked))

theorem doVerifyAct_keepsBeats (tag act : Byte) (s : State) : KeepsBeats s (doVerifyAct tag act s).left :=
  check_keepsBeats (refuse_keepsBeats s _) <| check_keepsBeats (refuse_keepsBeats s _) <| accept_keepsBeats _ _ s

theorem doChecksum_keepsBeats (tag : Byte) (address length : BitVec 32) (s : State) :
    KeepsBeats s (doChecksum tag address length s).left :=
  check_keepsBeats (refuse_keepsBeats s _) <| check_keepsBeats (refuse_keepsBeats s _) <| accept_keepsBeats _ _ s

theorem doProtection_keepsBeats (op : Nat → StoreOp) (tag act : Byte) (s : State) :
    KeepsBeats s (doProtection op tag act s).left :=
  check_keepsBeats (refuse_keepsBeats s _) <| check_keepsBeats (refuse_keepsBeats s _) <|
    check_keepsBeats (refuse_keepsBeats s _) <| accept_keepsBeats _ _ s

theorem doLockShow_keepsBeats (s : State) : KeepsBeats s (doLockShow s).left := by
  unfold doLockShow
  split
  · exact refuse_keepsBeats s _
  · exact withStore_keepsBeats s _

theorem doCensus_keepsBeats (tag : Byte) (s : State) : KeepsBeats s (doCensus tag s).left :=
  check_keepsBeats (refuse_keepsBeats s _) <| check_keepsBeats (refuse_keepsBeats s _) <|
    answer_keepsBeats _ _ <| (offerTool_keepsBeats _ _).after (withTools_keepsBeats s _)

theorem doScreenTest_keepsBeats (tag channel : Byte) (count : BitVec 16) (length : Byte) (gap : BitVec 16) (mode : Byte)
    (s : State) : KeepsBeats s (doScreenTest tag channel count length gap mode s).left := by
  unfold doScreenTest
  split
  · exact check_keepsBeats (check_keepsBeats (refuse_keepsBeats s _) <| check_keepsBeats (refuse_keepsBeats s _) <|
      answer_keepsBeats _ _ <| (offerTool_keepsBeats _ _).after (withTools_keepsBeats s _)) (refuse_keepsBeats s _)
  · exact refuse_keepsBeats s _

theorem doStopTest_keepsBeats (s : State) : KeepsBeats s (doStopTest s).left := by
  unfold doStopTest
  split
  · exact endTest_keepsBeats _ _ s
  · exact .refl s

theorem doRestart_keepsBeats (confirm : Byte) (s : State) : KeepsBeats s (doRestart confirm s).left := by
  unfold doRestart
  split
  · exact refuse_keepsBeats s _
  · exact KeepsBeats.of_eq rfl rfl rfl

theorem replyOf_keepsBeats (h : Head) (r : Request) (s : State) : KeepsBeats s (replyOf h r s).left := by
  cases r with
  | identify => exact .refl s
  | readStatus => exact KeepsBeats.of_eq rfl rfl rfl
  | readCounters => exact KeepsBeats.of_eq rfl rfl rfl
  | readConfig => exact .refl s
  | setConfig pairs => exact doSetConfig_keepsBeats pairs s
  | commitConfig => exact doCommitConfig_keepsBeats s
  | loadAct act => exact doLoadAct_keepsBeats h.tag act s
  | start force => exact doStart_keepsBeats h.tag force s
  | hold => exact doHold_keepsBeats h.tag s
  | resume => exact doResume_keepsBeats h.tag s
  | stop => exact doStop_keepsBeats h.tag s
  | unload => exact doUnload_keepsBeats h.tag h.confirm s
  | setPointer label => exact doSetPointer_keepsBeats label s
  | showMessage level mask duration text => exact doShowMessage_keepsBeats h.tag h.confirm level mask duration text s
  | clearMessage level mask => exact doClearMessage_keepsBeats h.confirm level mask s
  | readStore address length => exact doReadStore_keepsBeats address length s
  | programStore address data => exact doProgramStore_keepsBeats h.tag address data s
  | eraseSector sector => exact doEraseSector_keepsBeats h.tag sector s
  | verifyAct act => exact doVerifyAct_keepsBeats h.tag act s
  | checksum address length => exact doChecksum_keepsBeats h.tag address length s
  | protectAct act => exact doProtection_keepsBeats .protect h.tag act s
  | unprotectAct act => exact doProtection_keepsBeats .unprotect h.tag act s
  | lockShow => exact doLockShow_keepsBeats s
  | readEcc => exact .refl s
  | clearEcc => exact withStore_keepsBeats s _
  | census => exact doCensus_keepsBeats h.tag s
  | readCensus => exact .refl s
  | screenTest channel count length gap mode => exact doScreenTest_keepsBeats h.tag channel count length gap mode s
  | stopTest => exact doStopTest_keepsBeats s
  | restart => exact doRestart_keepsBeats h.confirm s

/-! ### Handling of requests (R162, R163) -/

theorem respond_keepsBeats (g : Handling) (result : Result) (data : List Byte) (s : State) :
    KeepsBeats s (respond g result data s) :=
  (placeResponse_only _ _).toFiresOnly.keepsBeats.after ((withManagement_keepsBeats _ _).after (offerHalves_keepsBeats s))

theorem carryOut_keepsBeats (g : Handling) (r : Reply) : KeepsBeats r.left (carryOut g r) := by
  cases r with
  | answer s result data => exact respond_keepsBeats g result data s
  | waiting s => exact .refl s

theorem handlePayload_keepsBeats (source : Byte) (payload : List Byte) (s : State) :
    KeepsBeats s (handlePayload source payload s) := by
  unfold handlePayload
  split
  · exact (carryOut_keepsBeats _ _).after ((replyOf_keepsBeats _ _ _).after (withManagement_keepsBeats s _))
  · exact (respond_keepsBeats _ _ _ _).after (withManagement_keepsBeats s _)

theorem serveLoop_keepsBeats (fuel : Nat) (s : State) : KeepsBeats s (serveLoop fuel s) := by
  induction fuel generalizing s with
  | zero => exact .refl s
  | succ fuel ih =>
    unfold serveLoop
    split
    · exact .refl s
    · split
      · exact (ih _).after ((handlePayload_keepsBeats _ _ _).after (withManagement_keepsBeats s _))
      · exact .refl s

theorem serve_keepsBeats (s : State) : KeepsBeats s (serve s) := serveLoop_keepsBeats _ s

theorem takeRequest_keepsBeats (source : Byte) (payload : List Byte) (s : State) :
    KeepsBeats s (takeRequest source payload s) := by
  have offered : KeepsBeats s (offerRequest source payload s) := by
    unfold offerRequest
    split
    · exact withManagement_keepsBeats s _
    · exact (count_only _ s).toFiresOnly.keepsBeats
  exact (serve_keepsBeats _).after offered

theorem discardBad_keepsBeats (port : Port) (s : State) : KeepsBeats s (discardBad port s) := by
  cases port <;> exact (count_only _ s).toFiresOnly.keepsBeats

theorem submit_keepsBeats (h : Head) (r : Request) (s : State) : KeepsBeats s (submit h r s) := by
  unfold submit
  split_ifs
  · exact discardBad_keepsBeats .u s
  · exact (carryOut_keepsBeats _ _).after ((replyOf_keepsBeats _ _ _).after (withManagement_keepsBeats s _))
  · exact takeRequest_keepsBeats _ _ s

theorem submitPayload_keepsBeats (source : Byte) (payload : List Byte) (s : State) :
    KeepsBeats s (submitPayload source payload s) := by
  unfold submitPayload
  split_ifs
  · exact discardBad_keepsBeats .u s
  · exact handlePayload_keepsBeats _ _ s
  · exact takeRequest_keepsBeats _ _ s

theorem readStoreServed_keepsBeats (s : State) : KeepsBeats s (readStoreServed s) := by
  unfold readStoreServed
  split
  · split
    · exact (respond_keepsBeats _ _ _ _).after
        ((leaveQueue_only _).toFiresOnly.keepsBeats.after (readUnits_only _ _ s).keepsBeats)
    · exact .refl s
  · exact .refl s

/-! ### Frames and transmissions (R148 to R157) -/

theorem forwardDown_only (f : Frame) (s : State) : CaptionsOnly s (forwardDown f s) := by
  unfold forwardDown
  split
  · have joined : PortDOnly s (s.withLink { s.link with downFifo := s.link.downFifo ++ [f] }) :=
      PortDOnly.of s _ rfl rfl rfl rfl rfl rfl
    exact (joined.trans (chooseD_only _)).toCaptionsOnly
  · exact (count_only _ s).toCaptionsOnly

theorem forwardUp_only (f : Frame) (s : State) : NoticesOnly s (forwardUp f s) := by
  unfold forwardUp
  split
  · have joined : PortUOnly s (s.withLink { s.link with upFifo := s.link.upFifo ++ [f] }) :=
      PortUOnly.links s _ (fun _ => rfl) rfl (samePortD.refl s)
    exact (joined.trans (chooseU_only _)).toNoticesOnly
  · exact count_only _ s

theorem takeFromDesk_keepsBeats (f : Frame) (s : State) : KeepsBeats s (takeFromDesk f s) := by
  unfold takeFromDesk
  split_ifs
  · exact takePos_keepsBeats _ _ s
  · exact takeGo_keepsBeats _ s
  · exact .refl s

theorem dispatchU_keepsBeats (f : Frame) (s : State) : KeepsBeats s (dispatchU f s) := by
  unfold dispatchU
  split_ifs
  · exact discardBad_keepsBeats .u s
  · exact takeFromDesk_keepsBeats f s
  · exact takeRequest_keepsBeats _ _ s
  · exact (count_only _ s).toFiresOnly.keepsBeats
  · exact (takeFromDesk_keepsBeats f _).after (forwardDown_only f s).toFiresOnly.keepsBeats
  · exact (forwardDown_only f s).toFiresOnly.keepsBeats

theorem dispatchD_keepsBeats (f : Frame) (s : State) : KeepsBeats s (dispatchD f s) := by
  unfold dispatchD
  split_ifs
  · exact discardBad_keepsBeats .d s
  · exact takeAnswer_keepsBeats _ _ s
  · exact takeEcho_keepsBeats _ s
  · exact (count_only _ s).toFiresOnly.keepsBeats
  · exact (forwardUp_only f s).toFiresOnly.keepsBeats

theorem dispatch_keepsBeats (port : Port) (f : Frame) (s : State) : KeepsBeats s (dispatch port f s) := by
  cases port
  · exact dispatchU_keepsBeats f s
  · exact dispatchD_keepsBeats f s

theorem receive_keepsBeats (port : Port) (bytes : List Byte) (s : State) : KeepsBeats s (receive port bytes s) := by
  unfold receive
  split
  · exact dispatch_keepsBeats port _ s
  · exact discardBad_keepsBeats port s

theorem dSent_keepsBeats (s : State) : KeepsBeats s (dSent s) := by
  have told : ∀ (t : Option ToolFrame) (u : State), KeepsBeats u (toolSent t u) := fun t u => by
    unfold toolSent
    split
    · exact testFrameSent_keepsBeats u
    · exact .refl u
  unfold dSent
  split
  · exact (chooseD_only s).toFiresOnly.keepsBeats
  · exact (chooseD_only _).toFiresOnly.keepsBeats.after ((told _ _).after id)

theorem uSent_keepsBeats (s : State) : KeepsBeats s (uSent s) := by
  have told : ∀ u : State, KeepsBeats u (restartSent u) := fun u => by
    unfold restartSent
    split
    · exact withManagement_keepsBeats u _
    · exact .refl u
  unfold uSent
  split
  · exact (serve_keepsBeats _).after (chooseU_only s).toFiresOnly.keepsBeats
  · exact (serve_keepsBeats _).after ((chooseU_only _).toFiresOnly.keepsBeats.after ((told _).after id))

/-! ### Deadlines of the firing unit (R52, R56, R58) -/

theorem markExpired_only (s : State) : FiresOnly s (markExpired s) := by
  unfold markExpired
  split
  · split
    · exact (fireRun_only _ _ s).trans (arm_only _)
    · exact .refl s
  · exact .refl s

theorem followExpired_only (s : State) : FiresOnly s (followExpired s) := by
  unfold followExpired
  split
  · split
    · exact fire_only _ _ s
    · exact .refl s
  · exact .refl s

theorem watchExpired_only (s : State) : FiresOnly s (watchExpired s) := by
  unfold watchExpired
  split
  · split
    · exact (fireRun_only _ _ s).trans (arm_only _)
    · exact .refl s
  · exact .refl s

/-! ### Commands and steps -/

/-- A command's answer keeps the beat values. -/
def AnswerKeepsBeats (s : State) (a : Answer) : Prop := ∀ t, a = .next t → KeepsBeats s t

theorem AnswerKeepsBeats.next {s t : State} (h : KeepsBeats s t) : AnswerKeepsBeats s (.next t) := by
  rintro u ⟨⟩
  exact h

/-- A command with a moment keeps the beat values when its effect does (R114, R170). -/
theorem during_keepsBeats (m : Moment) (s : State) (effect : State → State) (h : ∀ s, KeepsBeats s (effect s)) :
    AnswerKeepsBeats s (during m s effect) := by
  refine .next ?_
  split
  · exact (offerHalves_keepsBeats _).after ((h _).after (atMoment_keepsBeats m s))
  · exact .refl s

theorem powerLost_beatsSound (cut : Interrupt) (s : State) : beatsSound (powerLost cut s) :=
  poweredUp_beatsSound s.straps (cutCells cut s.store) (cutProtection cut s.store)

theorem powerGained_beatsSound (straps : BitVec 4) (cut : Interrupt) (s : State) :
    beatsSound (powerGained straps cut s) :=
  poweredUp_beatsSound straps (cutCells cut s.store) (cutProtection cut s.store)

/-- The request rows of the opcode table keep the beat values. -/
theorem request_keepsBeats (m : Moment) (h : Head) (r : Request) (s : State) :
    AnswerKeepsBeats s (during m s (submit h r)) := during_keepsBeats m s _ (submit_keepsBeats h r)

/-- The frame rows of port U keep the beat values. -/
theorem frameU_keepsBeats (m : Moment) (f : Frame) (s : State) : AnswerKeepsBeats s (during m s (dispatchU f)) :=
  during_keepsBeats m s _ (dispatchU_keepsBeats f)

/-- The frame rows of port D keep the beat values. -/
theorem frameD_keepsBeats (m : Moment) (f : Frame) (s : State) : AnswerKeepsBeats s (during m s (dispatchD f)) :=
  during_keepsBeats m s _ (dispatchD_keepsBeats f)

/-- An effect of a fire's width keeps the beat values. -/
theorem during_keepsBeats_of_only (m : Moment) (s : State) (effect : State → State) (h : ∀ s, FiresOnly s (effect s)) :
    AnswerKeepsBeats s (during m s effect) := during_keepsBeats m s effect fun s => (h s).keepsBeats

theorem exec_keepsBeats (c : Instr) (s : State) : AnswerKeepsBeats s (exec c s) := by
  cases c with
  | powerUp straps cut => exact .next fun _ => powerGained_beatsSound straps cut s
  | powerFail cut =>
    refine .next ?_
    split
    · exact fun _ => powerLost_beatsSound cut s
    · exact .refl s
  | restartTakesEffect =>
    refine .next ?_
    split
    · exact restartEffect_keepsBeats s
    · exact .refl s
  | badFrame m port bytes => exact during_keepsBeats m s _ (receive_keepsBeats port bytes)
  | foreignKindFrame m port dest source kind seq payload => exact during_keepsBeats m s _ (dispatch_keepsBeats port _)
  | pos m dest source seq payload => exact frameU_keepsBeats m _ s
  | go m dest source seq payload => exact frameU_keepsBeats m _ s
  | req m dest source seq payload => exact frameU_keepsBeats m _ s
  | forwardDown m dest source kind seq payload => exact frameU_keepsBeats m _ s
  | forwardUp m dest source kind seq payload => exact frameD_keepsBeats m _ s
  | answer m dest source seq payload => exact frameD_keepsBeats m _ s
  | testEcho m dest source seq payload => exact frameD_keepsBeats m _ s
  | dTransmissionComplete m => exact during_keepsBeats m s _ dSent_keepsBeats
  | uTransmissionComplete m => exact during_keepsBeats m s _ uSent_keepsBeats
  | invalidRequest m source payload => exact during_keepsBeats m s _ (submitPayload_keepsBeats source payload)
  | readStoreServed m =>
    exact during_keepsBeats m s _ fun t => (serve_keepsBeats _).after (readStoreServed_keepsBeats t)
  | programComplete m => exact during_keepsBeats m s _ programCompleted_keepsBeats
  | eraseComplete m => exact during_keepsBeats m s _ eraseCompleted_keepsBeats
  | verifyComplete m => exact during_keepsBeats m s _ verifyCompleted_keepsBeats
  | checksumComplete m => exact during_keepsBeats m s _ checksumCompleted_keepsBeats
  | protectionUpdateComplete m => exact during_keepsBeats m s _ protectionCompleted_keepsBeats
  | loadComplete m => exact during_keepsBeats m s _ loadCompleted_keepsBeats
  | censusWindowExpiry m => exact during_keepsBeats m s _ censusExpired_keepsBeats
  | testGapExpiry m => exact during_keepsBeats m s _ testGapExpired_keepsBeats
  | testCompletion m => exact during_keepsBeats m s _ testCompleted_keepsBeats
  | silenceDeadlineExpiry m => exact during_keepsBeats m s _ silenceExpiry_keepsBeats
  | horizonDeadlineExpiry m => exact during_keepsBeats m s _ horizonExpiry_keepsBeats
  | markDeadlineExpiry m => exact during_keepsBeats_of_only m s _ markExpired_only
  | followDeadlineExpiry m => exact during_keepsBeats_of_only m s _ followExpired_only
  | watchDeadlineExpiry m => exact during_keepsBeats_of_only m s _ watchExpired_only
  | readingDeadlineExpiry m channel =>
    exact during_keepsBeats_of_only m s _ fun t => (readingExpired_only channel t).toFiresOnly
  | gapDeadlineExpiry m channel => exact during_keepsBeats_of_only m s _ fun t => (gapExpired_only channel t).toFiresOnly
  | messageExpiry m placement => exact during_keepsBeats m s _ (messageExpired_keepsBeats placement)
  | stagingReadEnd m => exact during_keepsBeats m s _ stagingReadEnded_keepsBeats
  | identify m h | readStatus m h | readCounters m h | readConfig m h | setConfig m h _ | commitConfig m h
  | loadAct m h _ | start m h _ | hold m h | resume m h | stop m h | unload m h | restart m h | setPointer m h _
  | showMessage m h _ _ _ _ | clearMessage m h _ _ | readStore m h _ _ | programStore m h _ _ | eraseSector m h _
  | verifyAct m h _ | checksum m h _ _ | protectAct m h _ | unprotectAct m h _ | lockShow m h | readEcc m h
  | clearEcc m h | census m h | readCensus m h | screenTest m h _ _ _ _ _ | stopTest m h =>
    exact request_keepsBeats m h _ s

end Sys2Proof.Machine

namespace Sys2Proof.Proofs

open Sys2Proof.Machine

/-- Settles O57: an idle step moves only the clock, and a command keeps the beat values by `exec_keepsBeats`. -/
theorem beatPeriodStaysInRange : Obligations.BeatPeriodStaysInRange := by
  intro s t hs hstep
  cases hp : s.pending with
  | nil =>
    rw [step_of_pending_nil hp] at hstep
    obtain rfl := Host.Outcome.next.inj hstep
    unfold tick
    split <;> exact hs
  | cons c rest =>
    have run : exec c (s.withPending rest) = .next t := by
      rw [← hstep, step, hp]
    exact exec_keepsBeats c _ t run hs

end Sys2Proof.Proofs
end

section
/-! A POS frame and the tracker's deadlines as commands (R7, R17, R23, R149): the new tracker stands, and the rest keeps to
a fire's width. -/

namespace Sys2Proof.Machine

/-! ### Widths over a replaced tracker -/

/-- The tracker replaced on both sides of a width. -/
theorem FiresOnly.withTracker {s t : State} (h : FiresOnly s t) (k : Tracker) :
    FiresOnly (s.withTracker k) (t.withTracker k) :=
  ⟨h.outside, ⟨rfl, h.score.2⟩, h.placements, h.control, h.store, h.requests, h.tools, h.grows⟩

/-- A fire's width leaves every byte, flag and operation of the store. -/
theorem FiresOnly.storeKept {s t : State} (h : FiresOnly s t) :
    t.store.protection = s.store.protection ∧ t.store.flight = s.store.flight ∧ t.store.region = s.store.region ∧
      t.store.lock = s.store.lock ∧ ∀ a, t.store.cells.get? a = s.store.cells.get? a := by
  obtain ⟨queue, suspended, hstore⟩ := h.store
  rw [hstore]
  exact ⟨rfl, rfl, rfl, rfl, fun _ => rfl⟩

/-- A command whose effect keeps to a fire's width from some state keeps to it as a whole. -/
theorem during_fires {m : Moment} {s₀ s base : State} {effect : State → State} (hs : Awake m s₀ s)
    (h : FiresOnly base (effect s)) : ∃ t, during m s₀ effect = .next t ∧ FiresOnly base t :=
  ⟨_, during_awake effect hs, h.trans (offerHalves_only _).toFiresOnly⟩

/-! ### A POS frame (R7, R149) -/

/-- A POS frame to the engine is taken by the tracker. -/
theorem dispatchU_pos_own {source seq : Byte} {payload : List Byte} {s : State} (hf : payloadFits payload = true) :
    dispatchU ⟨s.link.address, source, kindPos, seq, payload⟩ s = takePos seq payload s := by
  have fits : ¬ Config.payloadMax < payload.length := Nat.not_lt.2 (of_decide_eq_true hf)
  simp only [dispatchU, fits, takeFromDesk, if_true, if_false, true_or]

/-- A POS frame to the engine or broadcast is taken by the tracker, a broadcast one after it was forwarded, which leaves
the tracker alone. -/
theorem dispatchU_pos {dest source seq : Byte} {payload : List Byte} {s : State} (hf : payloadFits payload = true)
    (hd : dest = s.link.address ∨ dest = 255) :
    ∃ u, FiresOnly s u ∧ dispatchU ⟨dest, source, kindPos, seq, payload⟩ s = takePos seq payload u := by
  by_cases own : dest = s.link.address
  · subst own
    exact ⟨s, .refl s, dispatchU_pos_own hf⟩
  · obtain rfl : dest = 255 := hd.resolve_left own
    have fits : ¬ Config.payloadMax < payload.length := Nat.not_lt.2 (of_decide_eq_true hf)
    refine ⟨_, (forwardDown_only ⟨255, source, kindPos, seq, payload⟩ s).toFiresOnly, ?_⟩
    simp only [dispatchU, fits, own, takeFromDesk, if_true, if_false, true_and, true_or]

theorem takePos_of_dark {seq : Byte} {payload : List Byte} {s : State} (h : s.control.show_ = .dark) :
    takePos seq payload s = s := if_pos h

/-- Outside DARK a POS leaves the tracker that the report rules make, and otherwise keeps to a fire's width (R7). -/
theorem takePos_only {seq : Byte} {payload : List Byte} {s : State} (h : s.control.show_ ≠ .dark) :
    FiresOnly (s.withTracker (takeReport s.config.engine s.tracker (reportOf seq payload s.clock)).tracker)
      (takePos seq payload s) := by
  rw [takePos, if_neg h]
  exact track_only _ s

/-! ### The tracker's deadlines (R17, R23) -/

theorem silenceExpiry_only {s : State} {d : Time} (hd : s.tracker.silence = some d) (hp : due d s.clock = true) :
    FiresOnly (s.withTracker (silenceExpired s.config.engine s.tracker d).1) (silenceExpiry s) := by
  rw [silenceExpiry, hd]
  dsimp only
  rw [if_pos hp]
  exact trackDeadline_only _ s

theorem horizonExpiry_only {s : State} {d : Time} (hd : s.tracker.horizon = some d) (hp : due d s.clock = true) :
    FiresOnly (s.withTracker (horizonExpired s.tracker d).1) (horizonExpiry s) := by
  rw [horizonExpiry, hd]
  dsimp only
  rw [if_pos hp]
  exact trackDeadline_only _ s

/-- With SILENCE enabled the silence deadline makes a following tracker LOST (R23, R24). -/
theorem silenceExpired_lost {e : EngineConfig} {k : Tracker} (d : Time) (hf : k.follow = .locked ∨ k.follow = .coasting)
    (hon : e.onSilence = true) :
    (silenceExpired e k d).1 = { k with
      follow := .lost, latch := { k.latch with silence := true }, silence := none, horizon := none, rejects := 0,
      candidate := false, anySeq := true } := by
  rw [silenceExpired, if_pos ⟨hf, hon⟩]
  rfl

/-- The horizon deadline makes a LOCKED tracker COASTING (R17). -/
theorem horizonExpired_coasting {k : Tracker} (d : Time) (hf : k.follow = .locked) :
    (horizonExpired k d).1 = { k with follow := .coasting, horizon := none } := by
  simp only [horizonExpired, hf, if_true]

end Sys2Proof.Machine

namespace Sys2Proof.Proofs

open Sys2Proof.Machine

/-- Settles O14: the report reaches `takePos`, whose width keeps all that the statement names. -/
theorem reportsReachTheTracker : Obligations.ReportsReachTheTracker := by
  constructor
  · intro m dest source seq payload s₀ s hs hfit hd hshow
    obtain ⟨u, hu, hdispatch⟩ := dispatchU_pos (source := source) (seq := seq) hfit hd
    have hshow' : u.control.show_ ≠ .dark := by rwa [hu.control]
    have taken := takePos_only (seq := seq) (payload := payload) hshow'
    obtain ⟨-, -, -, hconfig, hclock, -⟩ := hu.outside
    rw [hconfig, hclock, hu.score.1, ← hdispatch] at taken
    obtain ⟨t, ht, only⟩ := during_fires hs ((hu.withTracker _).trans taken)
    obtain ⟨hprotection, hflight, -, -, hcells⟩ := only.storeKept
    exact ⟨t, ht, only.score.1, only.outside, only.score.2, only.control, only.placements, only.requests, hprotection,
      hflight, hcells⟩
  · intro m source seq payload s₀ s hs hfit hdark
    have same : dispatchU ⟨s.link.address, source, kindPos, seq, payload⟩ s = s := by
      rw [dispatchU_pos_own hfit, takePos_of_dark hdark]
    refine ⟨s, ?_, (PortUOnly.refl s).sameRest.1, (PortUOnly.refl s).sameRest.2, rfl, rfl, rfl⟩
    exact (during_plain _ hs (by rw [same]; exact hs.halves)).trans (congrArg _ same)

/-- Settles O16: each deadline's tracker, with the rest kept by a fire's width. -/
theorem trackerDeadlinesChangeTheFollowState : Obligations.TrackerDeadlinesChangeTheFollowState := by
  constructor
  · intro m d s₀ s hs hd hp hf hon
    obtain ⟨t, ht, only⟩ := during_fires hs (silenceExpiry_only hd hp)
    obtain ⟨-, -, -, -, hcells⟩ := only.storeKept
    exact ⟨t, ht, only.score.1.trans (silenceExpired_lost d hf hon), only.outside, only.score.2, only.control,
      only.placements, only.requests, hcells⟩
  · intro m d s₀ s hs hd hp hf
    obtain ⟨t, ht, only⟩ := during_fires hs (horizonExpiry_only hd hp)
    obtain ⟨-, -, -, -, hcells⟩ := only.storeKept
    exact ⟨t, ht, only.score.1.trans (horizonExpired_coasting d hf), only.outside, only.score.2, only.control,
      only.placements, only.requests, hcells⟩

end Sys2Proof.Proofs
end

section
/-! STOP (R139): the channels it empties, the blocks it resets, and the answer that follows. -/

namespace Sys2Proof.Machine

/-! ### What stays outside the widths: counters and channels -/

theorem recompose_counters (n : Fin 8) (why : Arrived) (s : State) : (recompose n why s).counters = s.counters := by
  unfold recompose
  dsimp only
  split
  · split
    · rfl
    · exact (putCaption_only _ _).counters
  · rfl

/-- Deciding a channel's content afresh touches that channel's content and caption number alone (R90, R91). -/
theorem recompose_channels (n : Fin 8) (why : Arrived) (s : State) :
    ∃ content number, (recompose n why s).channels =
      s.channels.set n { s.channels[n] with content := content, number := number } := by
  unfold recompose
  dsimp only
  split
  · split
    · exact ⟨contentOf s n, s.channels[n].number, rfl⟩
    · refine ⟨contentOf s n, s.channels[n].number + 1, ?_⟩
      unfold writeCaption
      rw [(putCaption_only _ _).channels]
      simp [State.withChannel]
  · exact ⟨s.channels[n].content, s.channels[n].number, (Vector.set_getElem_self _).symm⟩

/-- The staging logic touches neither channels nor counters nor the awaited list (R40). -/
theorem stage_beside (s : State) :
    (stage s).channels = s.channels ∧ (stage s).counters = s.counters ∧ (stage s).staging.awaited = s.staging.awaited := by
  unfold stage
  split
  · exact ⟨rfl, rfl, rfl⟩
  · split
    · exact ⟨rfl, rfl, rfl⟩
    · split <;> exact ⟨rfl, rfl, rfl⟩

theorem offerHalves_counters (s : State) : (offerHalves s).counters = s.counters :=
  foldl_keeps (fun s t => t.counters = s.counters) (fun _ => rfl) (fun _ _ _ h k => k.trans h) _
    (fun s n => (notify_only n s).counters) s.management.halves (s.withManagement { s.management with halves := [] })

/-- Answering touches neither firing unit nor staging nor channels nor counters (R163). -/
theorem respond_beside (g : Handling) (result : Result) (data : List Byte) (s : State) :
    let t := respond g result data s
    t.firing = s.firing ∧ t.staging = s.staging ∧ t.channels = s.channels ∧ t.counters = s.counters := by
  have offered := offerHalves_only s
  have placed := placeResponse_only ⟨g.source, g.code, g.tag, result, data⟩
    ((offerHalves s).withManagement { (offerHalves s).management with handling := none })
  exact ⟨placed.firing.trans offered.firing, placed.staging.trans offered.staging, placed.channels.trans offered.channels,
    placed.counters.trans (offerHalves_counters s)⟩

/-- A request's effect of a fire's width, once answered, keeps to that width from the state that found none in hand. -/
theorem FiresOnly.answered {s u : State} {g : Handling} (h : FiresOnly (takeInHand g s) u)
    (hs : s.management.handling = none) (result : Result) (data : List Byte) :
    FiresOnly s (respond g result data u) := by
  obtain ⟨v, hv, placed⟩ := respond_only g result data u
  obtain ⟨hfifo, -, hvalid⟩ := (h.trans hv.toFiresOnly).requests
  have ended : FiresOnly s (v.withManagement { v.management with handling := none }) :=
    { h.trans hv.toFiresOnly with requests := ⟨hfifo, hs.symm, hvalid⟩ }
  exact ended.trans placed.toFiresOnly

/-! ### Emptying the channels (R73, R95) -/

theorem mem_allChannels (n : Fin 8) : n ∈ allChannels := by
  revert n
  decide

/-- An enabled channel is emptied into the state, and may write a caption of its new content. -/
theorem emptyChannel_enabled {layer : Layer} {n : Fin 8} {s : State} (he : s.config.channels[n].enabled = true) :
    ∃ content number, (emptyChannel layer n s).channels =
      s.channels.set n { s.channels[n].emptied layer with content := content, number := number } := by
  rw [emptyChannel, if_pos he]
  obtain ⟨content, number, hc⟩ := recompose_channels n .nothing (s.withChannel n (s.channels[n].emptied layer))
  exact ⟨content, number, by simpa using hc⟩

theorem emptyChannel_disabled {layer : Layer} {n : Fin 8} {s : State} (he : s.config.channels[n].enabled = false) :
    emptyChannel layer n s = s := if_neg (by rw [he]; decide)

theorem emptyChannel_cleared {layer : Layer} {n : Fin 8} {s : State} (he : s.config.channels[n].enabled = true) :
    ClearedTo layer s.channels[n] (emptyChannel layer n s).channels[n] := by
  obtain ⟨content, number, hc⟩ := emptyChannel_enabled (layer := layer) he
  simp only [hc, Fin.getElem_fin, Vector.getElem_set_self]
  exact ⟨rfl, rfl, rfl, rfl, rfl, rfl, rfl, rfl, rfl⟩

/-- Every other channel is as before. -/
theorem emptyChannel_other {layer : Layer} {n k : Fin 8} {s : State} (h : k ≠ n) :
    (emptyChannel layer n s).channels[k] = s.channels[k] := by
  cases he : s.config.channels[n].enabled with
  | false => rw [emptyChannel_disabled he]
  | true =>
    obtain ⟨content, number, hc⟩ := emptyChannel_enabled (layer := layer) he
    have apart : n.val ≠ k.val := fun e => h (Fin.ext e.symm)
    simp [hc, apart]

theorem emptyChannel_only (layer : Layer) (n : Fin 8) (s : State) : CaptionsOnly s (emptyChannel layer n s) := by
  unfold emptyChannel
  split
  · exact (CaptionsOnly.channel s n _).trans (recompose_only n _ _)
  · exact .refl s

/-- Channels emptied in turn: a listed enabled channel is cleared, every other is as before. -/
theorem emptyEach_channels (layer : Layer) (n : Fin 8) {l : List (Fin 8)} (hl : l.Nodup) (s : State) :
    let t := l.foldl (fun s k => emptyChannel layer k s) s
    (n ∈ l → s.config.channels[n].enabled = true → ClearedTo layer s.channels[n] t.channels[n]) ∧
      (n ∉ l ∨ s.config.channels[n].enabled = false → t.channels[n] = s.channels[n]) := by
  induction l generalizing s with
  | nil => exact ⟨fun h => absurd h List.not_mem_nil, fun _ => rfl⟩
  | cons k rest ih =>
    obtain ⟨hk, hrest⟩ := List.nodup_cons.1 hl
    obtain ⟨cleared, kept⟩ := ih hrest (emptyChannel layer k s)
    obtain ⟨-, -, -, hconfig, -, -⟩ := (emptyChannel_only layer k s).outside
    rw [hconfig] at cleared kept
    by_cases hn : n = k
    · subst hn
      have after := kept (.inl hk)
      refine ⟨fun _ he => ?_, fun h => ?_⟩
      · rw [List.foldl_cons, after]
        exact emptyChannel_cleared he
      · rcases h with h | he
        · exact absurd List.mem_cons_self h
        · rw [List.foldl_cons, after, emptyChannel_disabled he]
    · rw [emptyChannel_other hn] at cleared kept
      refine ⟨fun h he => cleared ((List.mem_cons.1 h).resolve_left hn) he, fun h => kept ?_⟩
      exact h.imp_left fun h hmem => h (List.mem_cons_of_mem _ hmem)

/-- Emptying the channels clears every enabled one and leaves every disabled one as it was (R95). -/
theorem emptyChannels_channels (layer : Layer) (n : Fin 8) (s : State) :
    (s.config.channels[n].enabled = true → ClearedTo layer s.channels[n] (emptyChannels layer s).channels[n]) ∧
      (s.config.channels[n].enabled = false → (emptyChannels layer s).channels[n] = s.channels[n]) := by
  have each := emptyEach_channels layer n (l := allChannels) (by decide) s
  exact ⟨each.1 (mem_allChannels n), fun he => each.2 (.inr he)⟩

theorem emptyChannels_counters (layer : Layer) (s : State) : (emptyChannels layer s).counters = s.counters := by
  refine forChannels_keeps (fun s t => t.counters = s.counters) (fun _ => rfl) (fun _ _ _ h k => k.trans h) _ ?_ s
  intro n t
  unfold emptyChannel
  split
  · exact recompose_counters n _ _
  · rfl

/-! ### STOP (R139) -/

/-- The beat period at STOP: the loaded act's default, or the present one where there is none (R5). -/
def stopBeat (s : State) : Nat := s.table.beat.getD s.tracker.beat

/-- What STOP makes of the blocks: show state and tracker are set, firing unit and staging reset, the channels emptied,
and the rest keeps to a fire's width (R139). -/
theorem stopShow_blocks (tag : Byte) (s : State) :
    let t := stopShow tag s
    FiresOnly ((setShow .preset s).withTracker (s.tracker.resetTo (stopBeat s) s.clock)) t ∧
      t.firing = Firing.initial ∧ t.staging.entries = [] ∧ t.staging.awaited = [] ∧ t.counters = s.counters ∧
      ∀ n : Fin 8, (s.config.channels[n].enabled = true → ClearedTo .blank s.channels[n] t.channels[n]) ∧
        (s.config.channels[n].enabled = false → t.channels[n] = s.channels[n]) := by
  unfold stopShow
  extract_lets previous s1 s2 src s3 t
  have reset : PortUOnly ((setShow .preset s).withTracker (s.tracker.resetTo (stopBeat s) s.clock)) s1 :=
    resetTracker_only (stopBeat s) (setShow .preset s)
  have staged : ScreensOnly (s2.withStaging { s2.staging.flushed with awaited := [] }) s3 := stage_only _
  have beside := stage_beside (s2.withStaging { s2.staging.flushed with awaited := [] })
  obtain ⟨hchannels, hcounters, hawaited⟩ := beside
  have emptied := emptyChannels_only .blank s3
  have said : PortUOnly (emptyChannels .blank s3) t := showNotice_only _ _ _ _
  have width : FiresOnly ((setShow .preset s).withTracker (s.tracker.resetTo (stopBeat s) s.clock)) s3 :=
    ((reset.toFiresOnly.trans (FiresOnly.firings s1 _)).trans (FiresOnly.stagings s2 _)).trans staged.toFiresOnly
  have hconfig : s3.config = s.config := by
    obtain ⟨-, -, -, hconfig, -, -⟩ := width.outside
    exact hconfig
  have hchannels : s3.channels = s.channels := hchannels.trans reset.channels
  refine ⟨(width.trans emptied.toFiresOnly).trans said.toFiresOnly, ?_, ?_, ?_, ?_, fun n => ?_⟩
  · exact said.firing.trans (emptied.firing.trans staged.firing)
  · rw [said.staging, emptied.staging]
    exact staged.entries
  · rw [said.staging, emptied.staging]
    exact hawaited
  · exact said.counters.trans ((emptyChannels_counters _ _).trans (hcounters.trans reset.counters))
  · rw [said.channels, ← hconfig, ← hchannels]
    exact emptyChannels_channels .blank n s3

/-- A request without parameters fits a frame (R148, R164). -/
theorem requestPayload_fits {r : Request} (h : requestParameters r = []) (tag confirm : Byte) :
    (requestPayload r tag confirm).length ≤ Config.payloadMax := by
  rw [requestPayload, h]
  exact (by decide : 3 ≤ 240)

theorem doStop_of_playing {tag : Byte} {s : State} (h : s.control.show_ = .run ∨ s.control.show_ = .hold) :
    doStop tag s = .answer (stopShow tag s) .ok [] := by
  refine if_neg fun ⟨hrun, hhold⟩ => ?_
  exact h.elim hrun hhold

end Sys2Proof.Machine

namespace Sys2Proof.Proofs

open Sys2Proof.Machine

/-- Settles O46: STOP's effect on the blocks, which its answer leaves alone. -/
theorem stopReturnsToPreset : Obligations.StopReturnsToPreset := by
  intro m h s₀ s hs hshow
  have reply : replyOf h .stop (inHand h .stop s) = .answer (stopShow h.tag (inHand h .stop s)) .ok [] :=
    doStop_of_playing hshow
  obtain ⟨hrun, hanswered⟩ := request_answered h .stop _ _ _ hs (requestPayload_fits rfl _ _) reply
  obtain ⟨width, hfiring, hentries, hawaited, hcounters, hchannels⟩ := stopShow_blocks h.tag (inHand h .stop s)
  have only := FiresOnly.answered
    (s := (setShow .preset s).withTracker (s.tracker.resetTo (stopBeat s) s.clock)) width hs.handling .ok []
  obtain ⟨bfiring, bstaging, bchannels, bcounters⟩ :=
    respond_beside (handlingOf h (requestCode .stop)) .ok [] (stopShow h.tag (inHand h .stop s))
  obtain ⟨hprotection, hflight, hregion, hlock, hcells⟩ := only.storeKept
  obtain ⟨htracker, htable⟩ := only.score
  refine ⟨_, hrun, hanswered, only.control, ?_, ?_, ?_, ?_, ?_, fun b hb => ?_, bfiring.trans hfiring, ?_, ?_,
    fun n he => ?_, fun n he => ?_, only.outside, htable, only.placements, only.requests, bcounters.trans hcounters,
    hregion, hlock, hprotection, hflight, hcells⟩
  · rw [htracker]; rfl
  · rw [htracker]; rfl
  · rw [htracker]; rfl
  · rw [htracker]; rfl
  · rw [htracker]; rfl
  · rw [htracker]
    change stopBeat s = b
    rw [stopBeat, hb, Option.getD_some]
  · rw [bstaging, hentries]
  · rw [bstaging, hawaited]
  · rw [bchannels]
    exact (hchannels n).1 he
  · rw [bchannels]
    exact (hchannels n).2 he

end Sys2Proof.Proofs
end

section
/-! Requests that leave the management block alone but for the request in hand: READ_STATUS and READ_COUNTERS (R169, R170).
-/

namespace Sys2Proof.Machine

/-- A ready request whose owner touches no part of the management block: the answer keeps to port U's width from the
owner's state with no request in hand, and admits no notice. -/
theorem request_answeredQuietly {m : Moment} {s₀ s : State} (h : Head) (r : Request) (u : State) (result : Result)
    (data : List Byte) (hs : Ready m s₀ s) (hf : (requestPayload r h.tag h.confirm).length ≤ Config.payloadMax)
    (hr : replyOf h r (inHand h r s) = .answer u result data) (hu : u.management = (inHand h r s).management) :
    ∃ t, during m s₀ (submit h r) = .next t ∧ Answered t (responseTo h r result data) ∧
      PortUOnly (u.withManagement s.management) t ∧ sameNotices s t := by
  obtain ⟨hrun, hanswered⟩ := request_answered h r u result data hs hf hr
  have halves : u.management.halves = [] := by rw [hu]; exact hs.halves
  have free : ({ u.management with handling := none } : Management) = s.management := by
    rw [hu, ← hs.handling]
    rfl
  refine ⟨_, hrun, hanswered, ?_, ?_⟩
  · rw [respond_plain _ _ _ _ halves, free]
    exact placeResponse_only _ _
  · rw [respond_plain _ _ _ _ halves, free]
    exact placeResponse_notices _ (u.withManagement s.management)

end Sys2Proof.Machine

namespace Sys2Proof.Proofs

open Sys2Proof.Machine

/-- Settles O49: both requests leave the management block alone, so only what they clear differs. -/
theorem statusAndCountersAreReadAndCleared : Obligations.StatusAndCountersAreReadAndCleared := by
  intro m h s₀ s hs
  constructor
  · obtain ⟨t, hrun, hanswered, only, hnotices⟩ :=
      request_answeredQuietly h .readStatus _ _ _ hs (requestPayload_fits rfl _ _) rfl rfl
    refine ⟨t, hrun, hanswered, only.score.1, fun n => ?_, only.outside, only.score.2, ⟨only.staging, only.firing⟩,
      only.placements, only.stores, only.portD, only.requests, ⟨only.control, only.tool, only.counters⟩, hnotices⟩
    rw [only.channels]
    exact Vector.getElem_map _ _
  · obtain ⟨t, hrun, hanswered, only, hnotices⟩ :=
      request_answeredQuietly h .readCounters _ _ _ hs (requestPayload_fits rfl _ _) rfl rfl
    exact ⟨t, hrun, hanswered, only.counters, only.sameRest.1, only.control, only.tool, hnotices⟩

end Sys2Proof.Proofs
end

section
/-! The state after reset (R5, R29, R49, R73, R133, R142, R146, R161, R173). -/

namespace Sys2Proof.Machine

/-- Every channel after reset has its power-up values (R73). -/
theorem reset_channel (n : Fin 8) : State.reset.channels[n] = Channel.initial := Vector.getElem_replicate _

/-- After reset no operation is in flight and nothing waits, so a request is taken at once at every moment (R163). -/
theorem reset_ready (m : Moment) : Ready m State.reset (atMoment m State.reset) := by
  have found := atMoment_plain m State.reset rfl rfl
  exact ⟨⟨rfl, rfl⟩, by rw [found]; rfl, by rw [found]; rfl, by rw [found]; rfl, by rw [found]; rfl⟩

theorem reset_queuesSound : queuesSound State.reset := by
  refine ⟨by decide, by decide, by decide, by decide, fun n => ?_⟩
  rw [reset_channel]
  decide

end Sys2Proof.Machine

namespace Sys2Proof.Proofs

open Sys2Proof.Machine

/-- Settles O4: the values are those of `State.reset`, and each invariant holds of an engine in which nothing is loaded,
placed, queued or in flight. -/
theorem resetIsSound : Obligations.ResetIsSound := by
  have channel : ∀ n : Fin 8, State.reset.channels[n].layer = .off ∧ State.reset.channels[n].queue = [] ∧
      State.reset.channels[n].content = .dark ∧ State.reset.channels[n].number = 0 ∧
      State.reset.channels[n].present = .unknown := by
    intro n
    rw [reset_channel]
    exact ⟨rfl, rfl, rfl, rfl, rfl⟩
  have cells : cellsSound State.reset := ⟨reset_cells_wf, fun _ _ _ h => nomatch h⟩
  have placements : placementsSound State.reset := ⟨fun _ h => absurd h List.not_mem_nil, List.Pairwise.nil⟩
  have fired : firedBelow State.reset := fun _ h => nomatch h
  have lock : lockSound State.reset := fun _ => rfl
  exact ⟨rfl, rfl, rfl, rfl, rfl, rfl, rfl, rfl, rfl, rfl, rfl, rfl, channel, rfl, rfl, rfl, rfl, rfl, rfl, rfl, rfl, rfl,
    rfl, rfl, rfl, rfl, rfl, rfl, rfl, rfl, rfl, rfl, rfl, rfl, rfl, rfl, rfl, poweredUp_beatsSound _ _ _,
    reset_queuesSound, cells, placements, fired, lock, reset_ready⟩

end Sys2Proof.Proofs
end

section
/-! SET_POINTER (R69): the trigger it leaves, what a flush comes to, and the answer that follows. -/

namespace Sys2Proof.Machine

/-! ### The staging logic at work (R40, R44) -/

/-- Looking for work touches nothing but the staging read, its place in the read queue and the suspension of an erase
(R40, R114). -/
theorem stage_eq (s : State) :
    ∃ reading queue suspended, stage s =
      (s.withStaging { s.staging with reading := reading }).withStore
        { s.store with queue := queue, suspended := suspended } := by
  have idle : s = (s.withStaging { s.staging with reading := s.staging.reading }).withStore
      { s.store with queue := s.store.queue, suspended := s.store.suspended } := rfl
  unfold stage
  split
  · exact ⟨_, _, _, idle⟩
  · split
    · exact ⟨_, _, _, idle⟩
    · split
      · exact ⟨_, _, _, idle⟩
      · exact ⟨_, _, _, rfl⟩

/-- A flush empties the set, and otherwise touches what looking for work touches (R44). -/
theorem flush_eq (s : State) :
    ∃ reading queue suspended, flush s =
      (s.withStaging ⟨[], s.staging.awaited, reading⟩).withStore
        { s.store with queue := queue, suspended := suspended } := by
  obtain ⟨reading, queue, suspended, h⟩ := stage_eq (s.withStaging s.staging.flushed)
  exact ⟨reading, queue, suspended, h⟩

/-! ### The pointer placed without a previous fire (R69, R71) -/

/-- The trigger of a cue that SET_POINTER makes the pointer: in HOLD a COUNT cue's loaded counter, and else none, since
without a previous fire a FOLLOW cue has no remainder (R71). -/
def placedTrigger (s : State) (i : Nat) : Armed :=
  match s.control.show_, (s.table.cues[i]?).map (fun c : Cue => c.trigger) with
  | .hold, some (.count k) => .count k
  | _, _ => .none

theorem placedTrigger_of_preset {s : State} (h : s.control.show_ = .preset) (i : Nat) : placedTrigger s i = .none := by
  simp only [placedTrigger, h]

theorem placedTrigger_of_count {s : State} {i k : Nat} {c : Cue} (h : s.control.show_ = .hold)
    (hc : s.table.cues[i]? = some c) (hk : c.trigger = .count k) : placedTrigger s i = .count k := by
  simp only [placedTrigger, h, hc, Option.map_some, hk]

theorem placedTrigger_of_other {s : State} {i : Nat} {c : Cue} (hc : s.table.cues[i]? = some c)
    (hk : ∀ k, c.trigger ≠ .count k) : placedTrigger s i = .none := by
  unfold placedTrigger
  split
  · next k _ htrigger =>
    rw [hc] at htrigger
    exact absurd (Option.some.inj htrigger) (hk k)
  · rfl

/-- Placing the pointer once lf and the previous-fire time are removed (R69). -/
theorem placePointer_forgotten (i : Nat) (s : State) :
    placePointer i (s.withFiring { s.firing with last := none, previous := none }) =
      s.withFiring ⟨i, none, none, placedTrigger s i, none⟩ := by
  unfold placePointer placedTrigger pausedFresh
  cases hshow : s.control.show_ with
  | hold =>
    cases hcue : s.table.cues[i]? with
    | none => simp [hshow, hcue, State.withFiring]
    | some c => cases htrigger : c.trigger <;> simp [hshow, hcue, htrigger, State.withFiring]
  | dark | preset | run => simp [hshow, State.withFiring]

/-- What SET_POINTER makes of the blocks (R69). -/
def pointerSet (i : Nat) (s : State) : State :=
  flush (placePointer i (s.withFiring { s.firing with last := none, previous := none }))

theorem pointerSet_eq (i : Nat) (s : State) :
    ∃ reading queue suspended, pointerSet i s =
      ((s.withFiring ⟨i, none, none, placedTrigger s i, none⟩).withStaging ⟨[], s.staging.awaited, reading⟩).withStore
        { s.store with queue := queue, suspended := suspended } := by
  rw [pointerSet, placePointer_forgotten]
  exact flush_eq _

theorem doSetPointer_of_found {label : Label} {i : Nat} {s : State}
    (hshow : s.control.show_ = .preset ∨ s.control.show_ = .hold)
    (hlabel : (label.number = 0 ∧ i = 0) ∨ (label.number ≠ 0 ∧ s.table.search label = some i)) :
    doSetPointer label s = .answer (pointerSet i s) .ok [] := by
  have found : (if label.number = 0 then some 0 else s.table.search label) = some i := by
    rcases hlabel with ⟨hzero, rfl⟩ | ⟨hnumber, hsearch⟩
    · exact if_pos hzero
    · exact (if_neg hnumber).trans hsearch
  rw [doSetPointer, if_neg fun ⟨hpreset, hhold⟩ => hshow.elim hpreset hhold, found]
  rfl

/-- Firing unit, staging and read queue replaced keep to a fire's width. -/
theorem cues_only (s : State) (f : Firing) (g : Staging) (queue : List ReadJob) (suspended : Bool) :
    FiresOnly s (((s.withFiring f).withStaging g).withStore { s.store with queue := queue, suspended := suspended }) :=
  ((FiresOnly.firings s f).trans (FiresOnly.stagings _ g)).trans (ScreensOnly.reads _ queue suspended).toFiresOnly

/-- A request that leaves the management block alone, taken in hand and released again, leaves no trace of its
handling. -/
theorem inHand_cues_released (h : Head) (r : Request) (s : State) (f : Firing) (g : Staging) (x : Store) :
    ((((inHand h r s).withFiring f).withStaging g).withStore x).withManagement s.management =
      ((s.withFiring f).withStaging g).withStore x := rfl

/-- A SET_POINTER fits a frame (R148, R164). -/
theorem setPointerPayload_fits (label : Label) (tag confirm : Byte) :
    (requestPayload (.setPointer label) tag confirm).length ≤ Config.payloadMax := by
  simp [requestPayload, requestParameters, be, Config.payloadMax]

end Sys2Proof.Machine

namespace Sys2Proof.Proofs

open Sys2Proof.Machine

/-- Settles O21: the answer keeps to port U's width from the state with the pointer placed and staging flushed. -/
theorem setPointerPlacesThePointer : Obligations.SetPointerPlacesThePointer := by
  intro m h label i s₀ s hs hshow hlabel
  obtain ⟨reading, queue, suspended, placed⟩ := pointerSet_eq i (inHand h (.setPointer label) s)
  have reply : replyOf h (.setPointer label) (inHand h (.setPointer label) s) = _ := doSetPointer_of_found hshow hlabel
  rw [placed] at reply
  obtain ⟨t, hrun, hanswered, only, hnotices⟩ :=
    request_answeredQuietly h _ _ _ _ hs (setPointerPayload_fits _ _ _) reply rfl
  rw [inHand_cues_released] at only
  have width := (cues_only s _ _ queue suspended).trans only.toFiresOnly
  have hfiring : t.firing = ⟨i, none, none, placedTrigger s i, none⟩ := only.firing
  have hstaging : t.staging = ⟨[], s.staging.awaited, reading⟩ := only.staging
  have hstore : t.store = { s.store with queue := queue, suspended := suspended } := only.stores
  refine ⟨t, hrun, hanswered, ?_, ?_, ?_, ?_, fun hpreset => ?_, fun c k hhold hc hk => ?_, fun c hc hk => ?_, ?_, ?_,
    width.outside, width.score, ⟨only.channels, width.placements⟩, only.portD, width.requests,
    ⟨width.control, only.tool, only.counters⟩, hnotices, ?_⟩
  · rw [hfiring]
  · rw [hfiring]
  · rw [hfiring]
  · rw [hfiring]
  · rw [hfiring, placedTrigger_of_preset hpreset]
  · rw [hfiring, placedTrigger_of_count hhold hc hk]
  · rw [hfiring, placedTrigger_of_other hc hk]
  · rw [hstaging]
  · rw [hstaging]
  · rw [hstore]

end Sys2Proof.Proofs
end

section
/-! One channel's titles: what showing, releasing and delivering leave to the other channels and to the notices (R82 to
R91), and what a delivery makes of the channel itself (R86, R87). -/

namespace Sys2Proof.Machine

/-! ### The width of one channel's titles -/

theorem sameNotices.refl (s : State) : sameNotices s s := ⟨rfl, rfl⟩

theorem sameNotices.trans {s t u : State} (h : sameNotices s t) (k : sameNotices t u) : sameNotices s u :=
  ⟨k.1.trans h.1, k.2.trans h.2⟩

/-- At most what titles taking effect may change: the width of captions, and on a busy port U no notice but TITLE_SLIP
(R89). -/
structure TitlesOnly (s t : State) : Prop extends CaptionsOnly s t where
  quiet : s.link.sendingU.isSome = true → s.config.engine.notices[NoticeKind.titleSlip.index] = false → sameNotices s t

/-- At most what one channel's titles may change: no other channel. -/
structure ChannelOnly (n : Fin 8) (s t : State) : Prop extends TitlesOnly s t where
  others : ∀ k : Fin 8, k ≠ n → t.channels[k] = s.channels[k]

section order
variable {n : Fin 8} {s t u : State}

theorem TitlesOnly.refl (s : State) : TitlesOnly s s := ⟨.refl s, fun _ _ => .refl s⟩

theorem TitlesOnly.trans (h : TitlesOnly s t) (k : TitlesOnly t u) : TitlesOnly s u := by
  refine ⟨h.toCaptionsOnly.trans k.toCaptionsOnly, fun busy untold => (h.quiet busy untold).trans (k.quiet ?_ ?_)⟩
  · rw [(h.grows busy).1]
    exact busy
  · obtain ⟨-, -, -, hconfig, -, -⟩ := h.outside
    rw [hconfig]
    exact untold

theorem ChannelOnly.refl (n : Fin 8) (s : State) : ChannelOnly n s s := ⟨.refl s, fun _ _ => rfl⟩

theorem ChannelOnly.trans (h : ChannelOnly n s t) (k : ChannelOnly n t u) : ChannelOnly n s u :=
  ⟨h.toTitlesOnly.trans k.toTitlesOnly, fun i hi => (k.others i hi).trans (h.others i hi)⟩

/-- The channel itself replaced. -/
theorem ChannelOnly.channel (s : State) (n : Fin 8) (x : Channel) : ChannelOnly n s (s.withChannel n x) :=
  ⟨⟨.channel s n x, fun _ _ => .refl s⟩, fun k hk => withChannel_other s n k x hk⟩

/-- Port D's choice touches no channel and no notice. -/
theorem PortDOnly.toChannelOnly (h : PortDOnly s t) (n : Fin 8) : ChannelOnly n s t := by
  refine ⟨⟨h.toCaptionsOnly, fun _ _ => ?_⟩, fun k _ => by rw [h.channels]⟩
  rw [sameNotices, h.management]
  exact ⟨rfl, rfl⟩

end order

/-! ### The operations of a channel (R82 to R91) -/

/-- Counting holds its COUNTER_HALF notice back (R170). -/
theorem count_notices (name : CounterName) (s : State) : sameNotices s (count name s) := by
  unfold count
  dsimp only
  split <;> exact ⟨rfl, rfl⟩

/-- On a busy port U a notice of a disabled kind changes nothing (R171). -/
theorem notify_disabled {notice : Notice} {s : State} (busy : s.link.sendingU.isSome = true)
    (disabled : s.config.engine.notices[notice.kind.index] = false) : notify notice s = s := by
  rw [notify, admitNotice_disabled _ _ disabled, chooseU_busy _ busy]

theorem notify_titleSlip_channelOnly (n k : Fin 8) (cue : Nat) (label : Label) (kind : ItemKind) (resync : Bool)
    (fired now : Nat) (slip : Nat) (s : State) :
    ChannelOnly n s (notify (.titleSlip k cue label kind resync fired now slip) s) := by
  have only := notify_only (.titleSlip k cue label kind resync fired now slip) s
  refine ⟨⟨only.toCaptionsOnly, fun busy untold => ?_⟩, fun i _ => by rw [only.channels]⟩
  rw [notify_disabled (notice := .titleSlip k cue label kind resync fired now slip) busy untold]
  exact .refl s

theorem count_channelOnly (n : Fin 8) (name : CounterName) (s : State) : ChannelOnly n s (count name s) := by
  have only := count_only name s
  exact ⟨⟨only.toCaptionsOnly, fun _ _ => count_notices name s⟩, fun k _ => by rw [only.channels]⟩

theorem recompose_channelOnly (n : Fin 8) (why : Arrived) (s : State) : ChannelOnly n s (recompose n why s) := by
  unfold recompose
  dsimp only
  split
  · split
    · exact .channel s n _
    · exact ((ChannelOnly.channel s n _).trans (.channel _ n _)).trans ((putCaption_only _ _).toChannelOnly n)
  · exact .refl n s

theorem takeEffect_channelOnly (n : Fin 8) (i : Item) (s : State) : ChannelOnly n s (takeEffect n i s) := by
  unfold takeEffect
  extract_lets slip s1 src s2
  have h1 : ChannelOnly n s s1 := by
    unfold s1
    split
    · exact notify_titleSlip_channelOnly ..
    · exact .refl n s
  have h2 : ChannelOnly n s s2 := h1.trans (.channel _ n _)
  split
  · exact h2.trans (count_channelOnly n _ _)
  · exact h2

theorem showTitle_channelOnly (n : Fin 8) (i : Item) (s : State) : ChannelOnly n s (showTitle n i s) :=
  ((ChannelOnly.channel s n _).trans (recompose_channelOnly n _ _)).trans (takeEffect_channelOnly n i _)

theorem takeBlank_channelOnly (n : Fin 8) (i : Item) (s : State) : ChannelOnly n s (takeBlank n i s) :=
  ((ChannelOnly.channel s n _).trans (recompose_channelOnly n _ _)).trans (takeEffect_channelOnly n i _)

theorem releaseLoop_channelOnly (n : Fin 8) (fuel : Nat) (s : State) : ChannelOnly n s (releaseLoop n fuel s) := by
  induction fuel generalizing s with
  | zero => exact .refl n s
  | succ fuel ih =>
    unfold releaseLoop
    dsimp only
    split
    · exact .refl n s
    · split
      · exact .refl n s
      · split
        · exact .channel s n _
        · have taken := ChannelOnly.channel s n
          split
          · exact ((taken _).trans (takeBlank_channelOnly n _ _)).trans (ih _)
          · split
            · exact (taken _).trans (showTitle_channelOnly n _ _)
            · exact ((taken _).trans (.channel _ n _)).trans (recompose_channelOnly n _ _)

theorem release_channelOnly (n : Fin 8) (s : State) : ChannelOnly n s (release n s) := by
  unfold release
  split
  · exact releaseLoop_channelOnly n _ s
  · exact .refl n s

theorem deliver_channelOnly (k : Key) (result : Staged) (n : Fin 8) (s : State) :
    ChannelOnly n s (deliver k result n s) := by
  unfold deliver
  dsimp only
  split
  · exact (ChannelOnly.channel s n _).trans (release_channelOnly n _)
  · exact .channel s n _

/-! ### What a shown item makes of its channel (R81, R83, R89, R91) -/

/-- An item taking effect moves its channel's slip maximum alone (R89). -/
theorem takeEffect_channel (n : Fin 8) (i : Item) (s : State) :
    ∃ slipMax, (takeEffect n i s).channels[n] = { s.channels[n] with slipMax := slipMax } := by
  unfold takeEffect
  extract_lets slip s1 src s2
  have told : s1.channels = s.channels := by
    unfold s1
    split
    · exact (notify_only _ s).channels
    · rfl
  have measured : s2.channels[n] = { s.channels[n] with slipMax := max s1.channels[n].slipMax slip } := by
    rw [← told]
    exact withChannel_self s1 n _
  split
  · exact ⟨_, (congrArg (fun x : Vector Channel 8 => x[n]) (count_only _ s2).channels).trans measured⟩
  · exact ⟨_, measured⟩

/-- A channel once its title layer has changed: content and caption number follow (R91), and the item's slip is
measured (R89). -/
theorem takeEffect_recompose_channel (n : Fin 8) (why : Arrived) (i : Item) (c : Channel) (s : State) :
    ∃ content number slipMax, (takeEffect n i (recompose n why (s.withChannel n c))).channels[n] =
      { c with content := content, number := number, slipMax := slipMax } := by
  obtain ⟨content, number, hc⟩ := recompose_channels n why (s.withChannel n c)
  rw [withChannel_self] at hc
  have composed :
      (recompose n why (s.withChannel n c)).channels[n] = { c with content := content, number := number } := by
    rw [hc]
    exact Vector.getElem_set_self _
  obtain ⟨slipMax, measured⟩ := takeEffect_channel n i (recompose n why (s.withChannel n c))
  exact ⟨content, number, slipMax, by rw [measured, composed]⟩

/-- A title shown is the current one, and the queue behind it stays (R83). -/
theorem showTitle_channel (n : Fin 8) (i : Item) (s : State) :
    let c := (showTitle n i s).channels[n]
    c.layer = .showing ∧ c.current = some i ∧ c.queue = s.channels[n].queue := by
  obtain ⟨content, number, slipMax, h⟩ :=
    takeEffect_recompose_channel n .title i (s.channels[n].shows (s.languageOf n) i s.clock) s
  rw [showTitle, h]
  exact ⟨rfl, rfl, rfl⟩

/-- A BLANK item leaves its channel without a title, and the queue behind it stays (R81). -/
theorem takeBlank_channel (n : Fin 8) (i : Item) (s : State) :
    let c := (takeBlank n i s).channels[n]
    c.layer = .blank ∧ c.current = none ∧ c.queue = s.channels[n].queue := by
  obtain ⟨content, number, slipMax, h⟩ := takeEffect_recompose_channel n .nothing i (s.channels[n].clears .blank) s
  rw [takeBlank, h]
  exact ⟨rfl, rfl, rfl⟩

/-! ### Release, by its cases (R82) -/

section release
variable {n : Fin 8} {s : State} {i : Item} {rest : List Item}

theorem release_of_resting (h : s.channels[n].layer ≠ .blank ∧ s.channels[n].layer ≠ .settled) : release n s = s :=
  if_neg fun begins => begins.elim h.1 h.2

/-- An empty queue ends a release. -/
theorem releaseLoop_of_empty {fuel : Nat} (hq : s.channels[n].queue = []) : releaseLoop n fuel s = s := by
  cases fuel with
  | zero => rfl
  | succ fuel => simp only [releaseLoop, hq]

/-- In BLANK past its reading deadline a channel shows a title that has its text. -/
theorem release_shows (hl : s.channels[n].layer = .blank) (hq : s.channels[n].queue = i :: rest)
    (hd : isAhead s.channels[n].reading s.clock = false) (hk : i.kind = .title) (ha : i.awaiting = false) :
    let c := (release n s).channels[n]
    c.layer = .showing ∧ c.current = some i ∧ c.queue = rest := by
  have shown : release n s = showTitle n i (s.withChannel n { s.channels[n] with queue := rest }) := by
    rw [release, if_pos (.inl hl), releaseLoop]
    simp only [hq, hl, hd, hk, ha, Bool.false_eq_true, and_false, if_false, true_or, if_true]
  have effect := showTitle_channel n i (s.withChannel n { s.channels[n] with queue := rest })
  rw [withChannel_self, ← shown] at effect
  exact effect

/-- In BLANK past its reading deadline a channel takes a BLANK item, and stays there when nothing stands behind it. -/
theorem release_blanks (hl : s.channels[n].layer = .blank) (hq : s.channels[n].queue = [i])
    (hd : isAhead s.channels[n].reading s.clock = false) (hk : i.kind = .blank) :
    let c := (release n s).channels[n]
    c.layer = .blank ∧ c.current = none ∧ c.queue = [] := by
  have ha : i.awaiting = false := by simp [Item.awaiting, hk]
  have effect := takeBlank_channel n i (s.withChannel n { s.channels[n] with queue := [] })
  rw [withChannel_self] at effect
  have taken : release n s = releaseLoop n 1 (takeBlank n i (s.withChannel n { s.channels[n] with queue := [] })) := by
    rw [release, if_pos (.inl hl), hq, List.length_singleton, releaseLoop]
    simp only [hq, hl, hd, hk, ha, Bool.false_eq_true, and_false, if_false]
  rw [taken, releaseLoop_of_empty effect.2.2]
  exact effect

end release

/-! ### Delivery (R86, R87) -/

/-- A channel whose awaiting items of a key have taken a result. -/
def Channel.takes (c : Channel) (k : Key) (result : Staged) : Channel :=
  { c with queue := c.queue.map (fun i => if i.awaits k then i.delivered result else i) }

/-- An item that awaits a key is a title without its text (R76). -/
theorem Item.awaits_title {i : Item} {k : Key} (h : i.awaits k = true) : i.kind = .title := by
  simp only [Item.awaits, Item.awaiting, Bool.and_eq_true, decide_eq_true_eq] at h
  exact h.1.1.1

section deliver
variable {n : Fin 8} {s : State} {k : Key} {i : Item} {rest : List Item}

/-- Where the head does not await the key, or nothing can be released, the items take the result and no more. -/
theorem deliver_waits {result : Staged}
    (h : (s.channels[n].queue.head?).any (·.awaits k) = false ∨
      (s.channels[n].layer ≠ .blank ∧ s.channels[n].layer ≠ .settled)) :
    (deliver k result n s).channels[n] = s.channels[n].takes k result := by
  have taken := withChannel_self s n (s.channels[n].takes k result)
  unfold deliver
  dsimp only
  split
  · next waits =>
    have resting := h.resolve_left fun none => absurd (none.symm.trans waits) (by decide)
    rw [release_of_resting (by rwa [withChannel_self])]
    exact taken
  · exact taken

/-- A head that awaits the key is released with its result. -/
theorem deliver_head {result : Staged} (hq : s.channels[n].queue = i :: rest) (hi : i.awaits k = true) :
    deliver k result n s = release n (s.withChannel n (s.channels[n].takes k result)) := by
  have waits : (s.channels[n].queue.head?).any (·.awaits k) = true := by rw [hq]; exact hi
  exact if_pos waits

theorem takes_head {c : Channel} {result : Staged} (hq : c.queue = i :: rest) (hi : i.awaits k = true) :
    (c.takes k result).queue = i.delivered result :: (c.takes k result).queue.tail := by
  simp only [Channel.takes, hq, List.map_cons, hi, if_true, List.tail_cons]

/-- A text for the head of a channel in BLANK past its reading deadline is shown (R82, R86). -/
theorem deliver_shows {text : TitleText} (hq : s.channels[n].queue = i :: rest) (hi : i.awaits k = true)
    (hl : s.channels[n].layer = .blank) (hd : isAhead s.channels[n].reading s.clock = false) :
    let c := (deliver k (.ready text) n s).channels[n]
    c.layer = .showing ∧ c.current = some { i with text := some text } ∧
      c.queue = (s.channels[n].takes k (.ready text)).queue.tail := by
  rw [deliver_head hq hi]
  have taken := withChannel_self s n (s.channels[n].takes k (.ready text))
  refine release_shows (i := i.delivered (.ready text)) ?_ ?_ ?_ (Item.awaits_title (i := i) hi) (Bool.and_false _)
  · rw [taken]
    exact hl
  · rw [taken]
    exact takes_head hq hi
  · rw [taken]
    exact hd

/-- A failure for the only item of a channel in BLANK past its reading deadline leaves the channel BLANK (R82, R87). -/
theorem deliver_blanks (hq : s.channels[n].queue = [i]) (hi : i.awaits k = true)
    (hl : s.channels[n].layer = .blank) (hd : isAhead s.channels[n].reading s.clock = false) :
    let c := (deliver k .failed n s).channels[n]
    c.layer = .blank ∧ c.current = none ∧ c.queue = [] := by
  rw [deliver_head hq hi]
  have taken := withChannel_self s n (s.channels[n].takes k .failed)
  refine release_blanks (i := i.delivered .failed) ?_ ?_ ?_ rfl
  · rw [taken]
    exact hl
  · rw [taken, takes_head hq hi, Channel.takes, hq]
    rfl
  · rw [taken]
    exact hd

end deliver

/-! ### Channels in turn -/

/-- What is done for some channels in turn, each for itself alone, leaves every other channel as it was. -/
theorem foldl_apart {f : Fin 8 → State → State} (hf : ∀ k s, ChannelOnly k s (f k s)) {n : Fin 8} {l : List (Fin 8)}
    (hn : n ∉ l) (s : State) : (l.foldl (fun s k => f k s) s).channels[n] = s.channels[n] := by
  induction l generalizing s with
  | nil => rfl
  | cons k rest ih =>
    obtain ⟨hk, hrest⟩ := not_or.1 (mt List.mem_cons.2 hn)
    exact (ih hrest (f k s)).trans ((hf k s).others n hk)

/-- What is done for every channel, each for itself alone, does for a channel what it does in some state that has come
to it with that channel as it was. -/
theorem forChannels_channel {f : Fin 8 → State → State} (hf : ∀ k s, ChannelOnly k s (f k s)) (n : Fin 8) (s : State) :
    ∃ u, TitlesOnly s u ∧ u.channels[n] = s.channels[n] ∧ (forChannels f s).channels[n] = (f n u).channels[n] := by
  obtain ⟨before, after, split⟩ := List.append_of_mem (mem_allChannels n)
  have distinct : (before ++ n :: after).Nodup := split ▸ (by decide : allChannels.Nodup)
  obtain ⟨-, hafter, apart⟩ := List.nodup_append.1 distinct
  have hbefore : n ∉ before := fun h => apart n h n List.mem_cons_self rfl
  refine ⟨before.foldl (fun s k => f k s) s, ?_, foldl_apart hf hbefore s, ?_⟩
  · exact foldl_keeps TitlesOnly .refl (fun _ _ _ => .trans) _ (fun s k => (hf k s).toTitlesOnly) before s
  · rw [forChannels, split, List.foldl_append, List.foldl_cons]
    exact foldl_apart hf (List.nodup_cons.1 hafter).1 _

end Sys2Proof.Machine
end

section
/-! The end of the staging read (R41, R42): what taking the read off its queue leaves, the delivery to the channels that
await the key, the entry in the set, and STORE_ERROR. -/

namespace Sys2Proof.Machine

/-! ### The read leaves its queue (R114, R115) -/

/-- The state that has read a staging read's units and has it no longer outstanding. -/
def readTaken (units : List Nat) (s : State) : State :=
  let left := leaveQueue (readUnits .staging units s)
  left.withStaging { left.staging with reading := none }

theorem readUnit_notices (reader : Reader) (s : State) (unit : Nat) : sameNotices s (readUnit reader s unit) := by
  unfold readUnit
  split
  · dsimp only
    split <;> exact count_notices _ s
  · split
    · exact count_notices _ s
    · exact .refl s

theorem readUnits_notices (reader : Reader) (units : List Nat) (s : State) : sameNotices s (readUnits reader units s) :=
  foldl_keeps sameNotices .refl (fun _ _ _ => .trans) _ (readUnit_notices reader) units s

/-- Taking the read off its queue counts, may fill the address trap, and otherwise touches queue and staging read. -/
theorem readTaken_only (units : List Nat) (s : State) :
    ∃ trap region reads,
      ScreensOnly (s.withStore { s.store with trap := trap, region := region, reads := reads }) (readTaken units s) ∧
        (readTaken units s).channels = s.channels ∧ (readTaken units s).staging.awaited = s.staging.awaited ∧
        sameNotices s (readTaken units s) := by
  obtain ⟨trap, region, reads, only⟩ := readUnits_only .staging units s
  have awaited : (readTaken units s).staging.awaited = s.staging.awaited := congrArg (·.awaited) only.staging
  refine ⟨trap, region, reads, ?_, only.channels, awaited, readUnits_notices _ units s⟩
  exact (only.toScreensOnly.trans (leaveQueue_only _)).trans (ScreensOnly.stagings _ _ rfl)

/-- A staging read at the head of the queue, with nothing that blocks it, is taken and its result handed on. -/
theorem stagingReadEnded_of_served {r : StagingRead} {rest : List ReadJob} {s : State} (hr : s.staging.reading = some r)
    (hq : s.store.queue = .staging :: rest) (hb : s.store.blocksReads = false) (hn : s.management.restart = .none) :
    stagingReadEnded s =
      stage (takeReadEnd r (s.store.firstFailure (textUnits s.store r.address)) (textAt s.store r.address)
        (readTaken (textUnits s.store r.address) s)) := by
  have served : servable ReadJob.isStaging s = true := by simp [servable, hn, hb, hq, ReadJob.isStaging]
  unfold stagingReadEnded
  rw [hr]
  exact if_pos served

/-! ### Delivery to the channels that await the key (R41, R46) -/

section delivery
variable {k : Key} {result : Staged} {s : State}

theorem deliverAwaited_of_none (h : s.staging.awaited.find? (fun a => a.key = k) = none) :
    deliverAwaited k result s = s := by
  rw [deliverAwaited, h]

/-- What a delivery does for one channel of the awaited entry's set. -/
def deliverIn (set : ChannelSet) (k : Key) (result : Staged) (n : Fin 8) (s : State) : State :=
  if setHas set n then deliver k result n s else s

theorem deliverIn_channelOnly (set : ChannelSet) (k : Key) (result : Staged) (n : Fin 8) (s : State) :
    ChannelOnly n s (deliverIn set k result n s) := by
  unfold deliverIn
  split
  · exact deliver_channelOnly k result n s
  · exact .refl n s

/-- The state whose awaited list no longer holds a key. -/
def answeredKey (k : Key) (s : State) : State :=
  s.withStaging { s.staging with awaited := s.staging.awaited.filter (fun a => a.key ≠ k) }

theorem deliverAwaited_of_some {a : Awaited} (h : s.staging.awaited.find? (fun a => a.key = k) = some a) :
    deliverAwaited k result s = forChannels (deliverIn a.channels k result) (answeredKey k s) := by
  rw [deliverAwaited, h]
  rfl

/-- Without an entry for the key there is none to take off. -/
theorem answeredKey_of_none (h : s.staging.awaited.find? (fun a => a.key = k) = none) : answeredKey k s = s := by
  have kept : s.staging.awaited.filter (fun a => a.key ≠ k) = s.staging.awaited := by
    rw [List.filter_eq_self]
    intro a ha
    simpa using List.find?_eq_none.1 h a ha
  rw [answeredKey, kept]
  rfl

/-- The key's entry leaves the list, and besides only titles take effect (R46). -/
theorem deliverAwaited_only (k : Key) (result : Staged) (s : State) :
    TitlesOnly (answeredKey k s) (deliverAwaited k result s) := by
  cases h : s.staging.awaited.find? (fun a => a.key = k) with
  | none =>
    rw [deliverAwaited_of_none h, answeredKey_of_none h]
    exact .refl s
  | some a =>
    rw [deliverAwaited_of_some h]
    exact forChannels_keeps TitlesOnly .refl (fun _ _ _ => .trans) _
      (fun n s => (deliverIn_channelOnly a.channels k result n s).toTitlesOnly) _

/-- What a delivery makes of a channel, by whether the awaited entry names it: the items that await the key take the
result, and a head that awaits it in BLANK past the reading deadline takes effect (R82, R86, R87). -/
def DeliveredTo (k : Key) (result : Staged) (now : Time) (named : Bool) (c d : Channel) : Prop :=
  (named = false → d = c) ∧
    (named = true →
      (((c.queue.head?).any (·.awaits k) = false ∨ (c.layer ≠ .blank ∧ c.layer ≠ .settled)) → d = c.takes k result) ∧
      (∀ i later, c.queue = i :: later → i.awaits k = true → c.layer = .blank → isAhead c.reading now = false →
        (∀ text, result = .ready text → d.layer = .showing ∧ d.current = some { i with text := some text } ∧
          d.queue = (c.takes k result).queue.tail) ∧
        (result = .failed → later = [] → d.layer = .blank ∧ d.current = none ∧ d.queue = [])))

theorem deliverIn_delivers (set : ChannelSet) (k : Key) (result : Staged) (n : Fin 8) (s : State) :
    DeliveredTo k result s.clock (setHas set n) s.channels[n] (deliverIn set k result n s).channels[n] := by
  unfold deliverIn
  cases setHas set n with
  | false => exact ⟨fun _ => rfl, fun named => absurd named (by decide)⟩
  | true =>
    refine ⟨fun unnamed => absurd unnamed (by decide), fun _ => ⟨deliver_waits, fun i later hq hi hl hd => ⟨?_, ?_⟩⟩⟩
    · rintro text rfl
      exact deliver_shows hq hi hl hd
    · rintro rfl rfl
      exact deliver_blanks hq hi hl hd

/-- Each channel sees the delivery in a state with its own part as before. -/
theorem deliverAwaited_delivers {a : Awaited} (h : s.staging.awaited.find? (fun a => a.key = k) = some a) (n : Fin 8) :
    DeliveredTo k result s.clock (setHas a.channels n) s.channels[n] (deliverAwaited k result s).channels[n] := by
  obtain ⟨u, only, same, delivered⟩ :=
    forChannels_channel (deliverIn_channelOnly a.channels k result) n (answeredKey k s)
  obtain ⟨-, -, -, -, hclock, -⟩ := only.outside
  have effect := deliverIn_delivers a.channels k result n u
  rw [hclock, same, ← delivered, ← deliverAwaited_of_some h] at effect
  exact effect

end delivery

/-! ### The result enters the set (R41, R42) -/

/-- The result of a read, by the address of its failing unit. -/
def readResult (failure : Option Nat) (text : TitleText) : Staged :=
  match failure with
  | none => .ready text
  | some _ => .failed

theorem wantsEntry_congr {r : StagingRead} {s t : State} (hf : t.firing = s.firing) (ht : t.table = s.table)
    (he : t.staging.entries = s.staging.entries) : wantsEntry r t = wantsEntry r s := by
  simp only [wantsEntry, inWindowOf, Staging.find, hf, ht, he]

/-- The set with the result where it is wanted. -/
theorem keepResult_eq (r : StagingRead) (result : Staged) (s : State) :
    keepResult r result s =
      s.withStaging { s.staging with
        entries := s.staging.entries ++ (if wantsEntry r s then [⟨r.key, result⟩] else []) } := by
  unfold keepResult
  split
  · rfl
  · rw [List.append_nil]
    rfl

/-- Step 1 and step 2 of a read's end: the result delivered, then stored where it is wanted (R41, R42). -/
def resultTaken (r : StagingRead) (result : Staged) (s : State) : State :=
  keepResult r result (deliverAwaited r.key result s)

section readEnd
variable {r : StagingRead} {result : Staged} {text : TitleText} {s : State}

/-- A delivery leaves what makes an entry wanted. -/
theorem wantsEntry_delivered : wantsEntry r (deliverAwaited r.key result s) = wantsEntry r s := by
  have delivered := deliverAwaited_only r.key result s
  exact wantsEntry_congr delivered.firing delivered.score.2 delivered.entries

theorem resultTaken_eq (r : StagingRead) (result : Staged) (s : State) :
    resultTaken r result s =
      (deliverAwaited r.key result s).withStaging { (deliverAwaited r.key result s).staging with
        entries := s.staging.entries ++ (if wantsEntry r s then [⟨r.key, result⟩] else []) } := by
  rw [resultTaken, keepResult_eq, wantsEntry_delivered, (deliverAwaited_only r.key result s).entries]
  rfl

/-- What a result makes of staging and channels, with all else at a fire's width (R41, R42). -/
theorem resultTaken_blocks (r : StagingRead) (result : Staged) (s : State) :
    let t := resultTaken r result s
    FiresOnly s t ∧ t.firing = s.firing ∧
      t.staging.awaited = s.staging.awaited.filter (fun a => a.key ≠ r.key) ∧
      t.staging.entries = s.staging.entries ++ (if wantsEntry r s then [⟨r.key, result⟩] else []) ∧
      t.channels = (deliverAwaited r.key result s).channels := by
  have delivered := deliverAwaited_only r.key result s
  rw [resultTaken_eq]
  refine ⟨?_, delivered.firing, congrArg (·.awaited) delivered.staging, rfl, rfl⟩
  exact ((FiresOnly.stagings s _).trans delivered.toFiresOnly).trans (FiresOnly.stagings _ _)

/-- On a busy port U a result makes no notice where no channel awaits it or slips are not told (R89). -/
theorem resultTaken_quiet (busy : s.link.sendingU.isSome = true)
    (h : s.staging.awaited.find? (fun a => a.key = r.key) = none ∨
      s.config.engine.notices[NoticeKind.titleSlip.index] = false) :
    sameNotices s (resultTaken r result s) := by
  have delivered : sameNotices s (deliverAwaited r.key result s) := by
    rcases h with unawaited | untold
    · rw [deliverAwaited_of_none unawaited]
      exact .refl s
    · exact (deliverAwaited_only r.key result s).quiet busy untold
  rw [resultTaken_eq]
  exact delivered

/-- After delivery and entry only a notice is left to make (R42). -/
theorem takeReadEnd_only (r : StagingRead) (failure : Option Nat) (text : TitleText) (s : State) :
    PortUOnly (resultTaken r (readResult failure text) s) (takeReadEnd r failure text s) := by
  unfold takeReadEnd
  cases failure with
  | none => exact .refl _
  | some a =>
    dsimp only
    split
    · exact notify_only _ _
    · exact .refl _

/-- A failure delivered or stored makes a STORE_ERROR (R42). -/
theorem takeReadEnd_of_failed {a : Nat}
    (h : wantsEntry r s = true ∨ s.staging.awaited.find? (fun a => a.key = r.key) ≠ none) :
    takeReadEnd r (some a) text s =
      notify (.storeError r.key.cue (s.table.labelAt r.key.cue) r.key.lang a) (resultTaken r .failed s) := by
  have heard : (s.staging.awaited.any (fun a => a.key = r.key) ||
      wantsEntry r (deliverAwaited r.key .failed s)) = true := by
    rw [wantsEntry_delivered, Bool.or_eq_true]
    refine h.symm.imp_left fun awaited => ?_
    rwa [List.any_eq_true, ← List.find?_isSome, Option.isSome_iff_ne_none]
  obtain ⟨width, -, -, -, -⟩ := resultTaken_blocks r .failed s
  rw [← width.score.2]
  exact if_pos heard

/-- Room for a notice stays where the notices and what port U sends stay. -/
theorem FiresOnly.keepsRoom {s t : State} {k : NoticeKind} (only : FiresOnly s t) (same : sameNotices s t)
    (room : roomFor s k) : roomFor t k := by
  obtain ⟨busy, made, place⟩ := room
  obtain ⟨-, -, -, hconfig, -, -⟩ := only.outside
  exact ⟨by rw [(only.grows busy).1]; exact busy, by rw [hconfig]; exact made, by rw [same.1]; exact place⟩

/-- A notice admitted after a stretch without notices is admitted from its start. -/
theorem Admitted.since {s t u : State} {n : Notice} (h : Admitted t u n) (same : sameNotices s t) : Admitted s u n := by
  unfold Admitted at h ⊢
  rw [← same.1, ← same.2]
  exact h

/-- Given room, a failure delivered or stored is told by STORE_ERROR, the first notice of the step where no slip is told
(R42, R171). -/
theorem takeReadEnd_tells {a : Nat}
    (h : wantsEntry r s = true ∨ s.staging.awaited.find? (fun a => a.key = r.key) ≠ none)
    (room : roomFor s .storeError)
    (untold : s.staging.awaited.find? (fun a => a.key = r.key) = none ∨
      s.config.engine.notices[NoticeKind.titleSlip.index] = false) :
    Admitted s (takeReadEnd r (some a) text s)
      (.storeError r.key.cue (s.table.labelAt r.key.cue) r.key.lang a) := by
  obtain ⟨width, -, -, -, -⟩ := resultTaken_blocks r .failed s
  have silent : sameNotices s (resultTaken r .failed s) := resultTaken_quiet room.1 untold
  have place : roomFor (resultTaken r .failed s) .storeError := width.keepsRoom silent room
  rw [takeReadEnd_of_failed h]
  exact (notify_admitted _ _ place).since silent

end readEnd

/-- Looking for work and offering the notices held back touch neither channels nor firing unit, nor of staging more than
the read outstanding (R40, R170). -/
theorem stage_offered (s : State) :
    let t := offerHalves (stage s)
    ScreensOnly s t ∧ t.channels = s.channels ∧ t.staging.awaited = s.staging.awaited := by
  obtain ⟨hchannels, -, hawaited⟩ := stage_beside s
  have offered := offerHalves_only (stage s)
  refine ⟨(stage_only s).trans offered.toScreensOnly, offered.channels.trans hchannels, ?_⟩
  rw [offered.staging, hawaited]

end Sys2Proof.Machine

namespace Sys2Proof.Proofs

open Sys2Proof.Machine

/-- Settles O42: the read leaves its queue, its result is delivered and stored, the staging logic looks for work, and
the notices held back are offered. -/
theorem stagingReadEndKeepsTheResult : Obligations.StagingReadEndKeepsTheResult := by
  intro m r rest s₀ s hs hread hqueue hblocks hrestart st failure result awaited taken
  obtain ⟨trap, region, reads, before, bchannels, bawaited, bnotices⟩ := readTaken_only (textUnits s.store r.address) s
  have run := during_awake stagingReadEnded hs
  rw [stagingReadEnded_of_served hread hqueue hblocks hrestart] at run
  generalize readTaken (textUnits s.store r.address) s = u at *
  have hresult :
      readResult (s.store.firstFailure (textUnits s.store r.address)) (textAt s.store r.address) = result := by
    change readResult (failure.map (16 * ·)) _ = if failure = none then _ else _
    cases failure <;> rfl
  have told := takeReadEnd_only r (s.store.firstFailure (textUnits s.store r.address)) (textAt s.store r.address) u
  obtain ⟨after, achannels, aawaited⟩ := stage_offered (takeReadEnd r
    (s.store.firstFailure (textUnits s.store r.address)) (textAt s.store r.address) u)
  rw [hresult] at told
  obtain ⟨took, hfiring, hawaited, hentries, hchannels⟩ := resultTaken_blocks r result u
  have width := (before.toFiresOnly.trans took).trans told.toFiresOnly
  have only := width.trans after.toFiresOnly
  obtain ⟨-, -, -, -, hcells⟩ := only.storeKept
  obtain ⟨-, -, -, hconfig, hclock, -⟩ := before.outside
  have wanted : wantsEntry r u = wantsEntry r s := wantsEntry_congr before.firing before.score.2 before.entries
  rw [← told.staging, ← aawaited, bawaited] at hawaited
  rw [← told.entries, ← after.entries, wanted, before.entries] at hentries
  rw [← told.channels, ← achannels] at hchannels
  rw [← told.firing, ← after.firing, before.firing] at hfiring
  refine ⟨_, run, only.outside, only.score, only.placements, hfiring, only.control, only.requests, hcells, hawaited,
    fun unawaited => ?_, fun a ha n => ?_, fun unwanted => ?_, fun wants => ?_, fun unit hu heard room untold => ?_⟩
  · rw [hchannels, deliverAwaited_of_none (by rw [bawaited]; exact unawaited), bchannels]
  · have effect := deliverAwaited_delivers (result := result) (by rw [bawaited]; exact ha) n
    rw [← hchannels, bchannels, hclock] at effect
    obtain ⟨unnamed, named⟩ := effect
    refine ⟨unnamed, fun hn => ?_⟩
    obtain ⟨waits, head⟩ := named hn
    refine ⟨waits, fun i later hq hi hl hd => ?_⟩
    obtain ⟨shows, blanks⟩ := head i later hq hi hl hd
    exact ⟨fun good => shows _ (if_pos good), fun bad => blanks (if_neg bad)⟩
  · rw [hentries, unwanted]
    exact List.append_nil _
  · rw [hentries, wants]
    rfl
  · have failed : s.store.firstFailure (textUnits s.store r.address) = some (16 * unit) :=
      congrArg (Option.map (16 * ·)) hu
    obtain ⟨busy, -⟩ := width.grows room.1
    have admitted := takeReadEnd_tells (text := textAt s.store r.address) (a := 16 * unit) (r := r) (s := u)
      (by rw [wanted, bawaited]; exact heard) (before.toFiresOnly.keepsRoom bnotices room)
      (by rw [bawaited, hconfig]; exact untold)
    rw [before.score.2, ← failed] at admitted
    exact (admitted.since bnotices).mono (after.grows (by rw [busy]; exact room.1)).2

end Sys2Proof.Proofs
end

section
/-! The firing unit's shared rules (R51 to R60): what arming reads and keeps, the run of due cues, and what a fire leaves
in each block. -/

namespace Sys2Proof.Machine

/-! ### Arming (R51 to R57) -/

section arming
variable {s t : State}

/-- Arming reads, besides the firing unit, only what a fire's width keeps. -/
theorem armed_congr (h : FiresOnly s t) (hf : t.firing = s.firing) : armed t = armed s := by
  obtain ⟨-, -, -, hconfig, hclock, -⟩ := h.outside
  obtain ⟨htracker, htable⟩ := h.score
  simp only [armed, watchFor, markDeadline, hf, hconfig, hclock, htracker, htable]

theorem nothingDue_congr (h : FiresOnly s t) (hf : t.firing = s.firing) (hn : nothingDue s) : nothingDue t := by
  obtain ⟨-, -, -, -, hclock, -⟩ := h.outside
  unfold nothingDue dueFire at hn ⊢
  simp only [withFiring_firing, withFiring_clock, armed_congr h hf, hclock] at hn ⊢
  exact hn

/-- Arming replaces trigger and watch alone. -/
theorem armed_kept (s : State) :
    (armed s).pointer = s.firing.pointer ∧ (armed s).last = s.firing.last ∧ (armed s).previous = s.firing.previous := by
  unfold armed
  dsimp only
  split
  · exact ⟨rfl, rfl, rfl⟩
  · split
    · exact ⟨rfl, rfl, rfl⟩
    · exact ⟨rfl, rfl, rfl⟩
    · split <;> exact ⟨rfl, rfl, rfl⟩
    · exact ⟨rfl, rfl, rfl⟩

theorem markCueFrom_ge {table : CueTable} {a k w : Nat} (h : table.markCueFrom a k = some w) : a ≤ w := by
  induction k generalizing a with
  | zero => cases h
  | succ k ih =>
    unfold CueTable.markCueFrom at h
    split at h
    · cases h
    · split at h
      · exact (Option.some.inj h).le
      · exact Nat.le_of_succ_le (ih h)

theorem watchFor_ahead {lead : Nat} {w : Watch} (h : watchFor s lead = some w) : s.firing.pointer < w.cue := by
  unfold watchFor at h
  split at h
  · obtain ⟨cue, hcue, rfl⟩ := Option.map_eq_some_iff.1 h
    exact markCueFrom_ge hcue
  · cases h

/-- A watch that arming sets is on a cue past the pointer (R57). -/
theorem armed_watch {w : Watch} (h : (armed s).watch = some w) : s.firing.pointer < w.cue := by
  unfold armed at h
  dsimp only at h
  split at h
  · cases h
  · split at h
    · cases h
    · cases h
    · split at h
      · exact watchFor_ahead h
      · cases h
    · exact watchFor_ahead h

/-- In RUN, arming that finds nothing due does no more than arm (R51). -/
theorem arm_of_nothingDue (hrun : s.control.show_ = .run) (h : nothingDue s) : arm s = s.withFiring (armed s) := by
  have idle : dueFire (s.withFiring (armed s)) = .nothing := h
  rw [arm, if_pos hrun, armChain]
  simp only [idle]

/-- Outside RUN nothing is armed (R51). -/
theorem arm_of_notRunning (h : s.control.show_ ≠ .run) : arm s = s := if_neg h

/-- Arming and the fires it makes keep to a relation that each single arming and each fire due after it keep to. -/
theorem arm_keeps (R : State → State → Prop) (refl : ∀ s, R s s) (trans : ∀ s t u, R s t → R t u → R s u)
    (rearmed : ∀ s, R s (s.withFiring (armed s)))
    (fires : ∀ s : State, let s1 := s.withFiring (armed s); R s1 (fireDue (dueFire s1) s1)) (s : State) : R s (arm s) := by
  have chain : ∀ fuel s, R s (armChain fuel s) := by
    intro fuel
    induction fuel with
    | zero => exact refl
    | succ fuel ih =>
      intro s
      unfold armChain
      dsimp only
      split
      · exact rearmed s
      · exact trans _ _ _ (trans _ _ _ (rearmed s) (fires s)) (ih _)
  unfold arm
  split
  · exact chain _ s
  · exact refl s

end arming

/-! ### The run of due cues (R54, R58) -/

section run
variable {s : State} {fuel start : Nat}

theorem stackedRun_ge : start ≤ stackedRun s fuel start := by
  induction fuel generalizing start with
  | zero => exact Nat.le_refl _
  | succ fuel ih =>
    unfold stackedRun
    split
    · split
      · exact Nat.le_of_succ_le ih
      · exact Nat.le_refl _
    · exact Nat.le_refl _

/-- Every cue of the run after its first is a due MARK cue. -/
theorem stackedRun_due {j : Nat} (hlow : start < j) (hhigh : j ≤ stackedRun s fuel start) :
    ∃ c, s.table.cues[j]? = some c ∧ c.trigger = .mark ∧ markDue s c = true := by
  induction fuel generalizing start with
  | zero => exact absurd hhigh (Nat.not_le.2 hlow)
  | succ fuel ih =>
    unfold stackedRun at hhigh
    split at hhigh
    · next c hc =>
      split at hhigh
      · next joins =>
        rcases Nat.eq_or_lt_of_le hlow with rfl | later
        · exact ⟨c, hc, joins⟩
        · exact ih later hhigh
      · exact absurd hhigh (Nat.not_le.2 hlow)
    · exact absurd hhigh (Nat.not_le.2 hlow)

/-- With fuel for the rest of the table the run ends before a cue that is no due MARK cue. -/
theorem stackedRun_ends {c : Cue} (hfuel : s.table.cues.length ≤ start + fuel)
    (hc : s.table.cues[stackedRun s fuel start + 1]? = some c) (hmark : c.trigger = .mark) : markDue s c = false := by
  induction fuel generalizing start with
  | zero =>
    have inside := (List.getElem?_eq_some_iff.1 hc).1
    simp only [stackedRun] at inside
    omega
  | succ fuel ih =>
    unfold stackedRun at hc
    split at hc
    · next d hd =>
      split at hc
      · exact ih (by omega) hc
      · next stays =>
        obtain rfl := Option.some.inj (hd.symm.trans hc)
        exact Bool.eq_false_iff.2 fun hdue => stays ⟨hmark, hdue⟩
    · next past => exact absurd (past.symm.trans hc) (by simp)

end run

/-! ### A fire, up to its notices (R59) -/

/-- A fire's items handed over, in channel order (R59 step 2). -/
def handedOver (i : Nat) (cause : FireCause) (s : State) : State := forChannels (fireChannel i (cause = .resync)) s

/-- The CUE_FIRED notice of a fire (R59 step 5, R61). -/
def firedNotice (i : Nat) (cause : FireCause) (s : State) : Notice :=
  .cueFired (s.table.labelAt i) i cause (millis s.clock) (projection s)

theorem projection_congr {s t : State} (h : FiresOnly s t) : projection t = projection s := by
  obtain ⟨-, -, -, hconfig, hclock, -⟩ := h.outside
  rw [projection, projection, hconfig, hclock, h.score.1]

/-- A fire's width leaves what CUE_FIRED says. -/
theorem firedNotice_congr {s t : State} (h : FiresOnly s t) (i : Nat) (cause : FireCause) :
    firedNotice i cause t = firedNotice i cause s := by
  obtain ⟨-, -, -, -, hclock, -⟩ := h.outside
  rw [firedNotice, firedNotice, projection_congr h, h.score.2, hclock]

theorem handedOver_only (i : Nat) (cause : FireCause) (s : State) : ScreensOnly s (handedOver i cause s) :=
  forChannels_keeps ScreensOnly .refl (fun _ _ _ => .trans) _ (fireChannel_only i _) s

/-- Looking for work leaves firing unit, channels, counters and management block. -/
theorem stage_kept (s : State) :
    (stage s).firing = s.firing ∧ (stage s).channels = s.channels ∧ (stage s).counters = s.counters ∧
      (stage s).management = s.management := by
  obtain ⟨reading, queue, suspended, h⟩ := stage_eq s
  rw [h]
  exact ⟨rfl, rfl, rfl, rfl⟩

/-- The pointer moved past a fired cue, and staging advanced (R59 steps 3 and 4). -/
def movedPast (i : Nat) (s : State) : State := stagingAdvance (s.withFiring (s.firing.fired i s.clock))

theorem movedPast_only (i : Nat) (s : State) : FiresOnly s (movedPast i s) :=
  (FiresOnly.firings s (s.firing.fired i s.clock)).trans (stagingAdvance_only _)

theorem movedPast_kept (i : Nat) (s : State) :
    (movedPast i s).firing = s.firing.fired i s.clock ∧ (movedPast i s).channels = s.channels ∧
      (movedPast i s).counters = s.counters ∧ (movedPast i s).management = s.management :=
  stage_kept ((s.withFiring (s.firing.fired i s.clock)).withStaging _)

theorem flush_kept (s : State) :
    (flush s).firing = s.firing ∧ (flush s).channels = s.channels ∧ (flush s).counters = s.counters ∧
      (flush s).management = s.management :=
  stage_kept (s.withStaging _)

/-- A fire up to its notices: items handed over, pointer moved on, staging advanced and in some cases flushed (R59 steps
1 to 4). -/
def fireMade (i : Nat) (cause : FireCause) (s : State) : State :=
  if cause = .back ∨ cause = .resync then flush (movedPast i (handedOver i cause s))
  else movedPast i (handedOver i cause s)

/-- After the items are handed over a fire moves the firing unit on and works on staging alone. -/
theorem fireMade_kept (i : Nat) (cause : FireCause) (s : State) :
    FiresOnly s (fireMade i cause s) ∧ (fireMade i cause s).firing = s.firing.fired i s.clock ∧
      (fireMade i cause s).channels = (handedOver i cause s).channels ∧
      (fireMade i cause s).counters = (handedOver i cause s).counters ∧
      (fireMade i cause s).management = (handedOver i cause s).management := by
  have handed := handedOver_only i cause s
  obtain ⟨-, -, -, -, hclock, -⟩ := handed.outside
  have only := handed.toFiresOnly.trans (movedPast_only i _)
  obtain ⟨hfiring, hchannels, hcounters, hmanagement⟩ := movedPast_kept i (handedOver i cause s)
  rw [hclock, handed.firing] at hfiring
  unfold fireMade
  split
  · obtain ⟨ffiring, fchannels, fcounters, fmanagement⟩ := flush_kept (movedPast i (handedOver i cause s))
    exact ⟨only.trans (flush_only _), ffiring.trans hfiring, fchannels.trans hchannels, fcounters.trans hcounters,
      fmanagement.trans hmanagement⟩
  · exact ⟨only, hfiring, hchannels, hcounters, hmanagement⟩

/-- What follows in a fire are its notices, CUE_FIRED first (R59 steps 5 and 6). -/
theorem fireCue_told (i : Nat) (cause : FireCause) (s : State) :
    PortUOnly (notify (firedNotice i cause s) (fireMade i cause s)) (fireCue i cause s) := by
  rw [← firedNotice_congr (fireMade_kept i cause s).1]
  unfold fireCue
  extract_lets s1 s2 s3 s4
  change PortUOnly s4 _
  split
  · exact notify_only _ s4
  · exact .refl s4

/-- A fire moves the firing unit past its cue, and its channels and counters are those of the items handed over. -/
theorem fireCue_kept (i : Nat) (cause : FireCause) (s : State) :
    let t := fireCue i cause s
    t.firing = s.firing.fired i s.clock ∧ t.channels = (handedOver i cause s).channels ∧
      t.counters = (handedOver i cause s).counters := by
  obtain ⟨-, hfiring, hchannels, hcounters, -⟩ := fireMade_kept i cause s
  have told := (notify_only (firedNotice i cause s) (fireMade i cause s)).trans (fireCue_told i cause s)
  exact ⟨told.firing.trans hfiring, told.channels.trans hchannels, told.counters.trans hcounters⟩

/-- Counting and telling the overrun cues leaves the firing unit. -/
theorem fireRun_firing (start : Nat) (cause : FireCause) (s : State) :
    (fireRun start cause s).firing = s.firing.fired (stackedRun s s.table.cues.length start) s.clock := by
  have counted := overrun_only (stackedRun s s.table.cues.length start) s
  obtain ⟨-, -, -, -, hclock, -⟩ := counted.outside
  obtain ⟨hfiring, -, -⟩ := fireCue_kept (stackedRun s s.table.cues.length start) cause
    (overrun (stackedRun s s.table.cues.length start) s)
  rw [hclock, counted.firing] at hfiring
  exact hfiring

/-- A fire due after arming moves the pointer past a cue at or beyond it; with nothing due the firing unit is as it was. -/
theorem fireDue_firing (s : State) :
    let s1 := s.withFiring (armed s)
    let t := fireDue (dueFire s1) s1
    t.firing = s1.firing ∨ ∃ i, s.firing.pointer ≤ i ∧ t.firing = s1.firing.fired i s.clock := by
  intro s1 t
  have hpointer : s1.firing.pointer = s.firing.pointer := (armed_kept s).1
  cases hd : dueFire s1 with
  | nothing => exact .inl (by unfold t; rw [hd]; rfl)
  | mark =>
    refine .inr ⟨stackedRun s1 s1.table.cues.length s1.firing.pointer, ?_, ?_⟩
    · exact hpointer ▸ stackedRun_ge
    · unfold t
      rw [hd]
      exact fireRun_firing s1.firing.pointer .mark s1
  | count =>
    refine .inr ⟨s1.firing.pointer, hpointer.ge, ?_⟩
    unfold t
    rw [hd]
    exact (fireCue_kept s1.firing.pointer .count s1).1
  | follow =>
    refine .inr ⟨s1.firing.pointer, hpointer.ge, ?_⟩
    unfold t
    rw [hd]
    exact (fireCue_kept s1.firing.pointer .follow s1).1
  | watch start =>
    have ahead : s.firing.pointer < start := by
      unfold dueFire at hd
      split at hd
      · split at hd <;> cases hd
      · split at hd <;> cases hd
      · split at hd <;> cases hd
      · cases hd
      · split at hd
        · next w hw =>
          split at hd
          · cases hd
            exact armed_watch hw
          · cases hd
        · cases hd
    refine .inr ⟨stackedRun s1 s1.table.cues.length start, ?_, ?_⟩
    · exact ahead.le.trans stackedRun_ge
    · unfold t
      rw [hd]
      exact fireRun_firing start .overrun s1

end Sys2Proof.Machine
end

section
/-! What every step keeps, proved once for all relations: a relation that the blocks' own operations keep to is kept to by
every command and by every step. -/

namespace Sys2Proof.Machine

/-! ### The rules a relation must satisfy -/

/-- What a relation between the states before and after must allow so that every step keeps to it: it is a preorder, it
allows every change of queue of commands, clock, units' condition, management block, link and tools, the widths of
screens and of reads, and what each block's own operations do. -/
structure StepRules (R : State → State → Prop) : Prop where
  refl : ∀ s, R s s
  trans : ∀ {s t u}, R s t → R t u → R s u
  pending : ∀ (s : State) x, R s (s.withPending x)
  clock : ∀ (s : State) x, R s (s.withClock x)
  faults : ∀ (s : State) x, R s (s.withStore { s.store with faults := x })
  management : ∀ (s : State) x, R s (s.withManagement x)
  link : ∀ (s : State) x, R s (s.withLink x)
  tools : ∀ (s : State) x, R s (s.withTools x)
  screens : ∀ {s t}, ScreensOnly s t → R s t
  reads : ∀ {s t}, ReadsOnly s t → R s t
  reply : ∀ h r s, R s (replyOf h r s).left
  pos : ∀ seq payload s, R s (takePos seq payload s)
  go : ∀ payload s, R s (takeGo payload s)
  silence : ∀ s, R s (silenceExpiry s)
  horizon : ∀ s, R s (horizonExpiry s)
  mark : ∀ s, R s (markExpired s)
  follow : ∀ s, R s (followExpired s)
  watch : ∀ s, R s (watchExpired s)
  message : ∀ i s, R s (messageExpired i s)
  staging : ∀ s, R s (stagingReadEnded s)
  program : ∀ s, R s (programCompleted s)
  erase : ∀ s, R s (eraseCompleted s)
  verify : ∀ s, R s (verifyCompleted s)
  checksum : ∀ s, R s (checksumCompleted s)
  protection : ∀ s, R s (protectionCompleted s)
  load : ∀ s, R s (loadCompleted s)
  restart : ∀ s, R s (restartEffect s)
  powerFail : ∀ cut s, R s (powerLost cut s)
  powerUp : ∀ straps cut s, R s (powerGained straps cut s)

theorem markPresent_only (n : Fin 8) (s : State) : CaptionsOnly s (markPresent n s) := by
  unfold markPresent
  split
  · exact CaptionsOnly.channel s n _
  · exact .refl s

namespace StepRules

variable {R : State → State → Prop} (rules : StepRules R)
include rules

/-- Counting, notices and responses. -/
theorem notices {s t : State} (h : NoticesOnly s t) : R s t := rules.screens h.toScreensOnly

/-- Port D's choices. -/
theorem portD {s t : State} (h : PortDOnly s t) : R s t := rules.screens h.toScreensOnly

/-! ### Requests (R162, R163) -/

theorem respond (g : Handling) (result : Result) (data : List Byte) (s : State) :
    R s (Machine.respond g result data s) := by
  obtain ⟨u, counted, placed⟩ := respond_only g result data s
  exact rules.trans (rules.trans (rules.notices counted) (rules.management u _)) (rules.notices placed.toNoticesOnly)

theorem carryOut (g : Handling) (r : Reply) : R r.left (Machine.carryOut g r) := by
  cases r with
  | answer s result data => exact rules.respond g result data s
  | waiting s => exact rules.refl s

theorem handleRequest (h : Head) (r : Request) (s : State) : R s (Machine.handleRequest h r s) :=
  rules.trans (rules.trans (rules.management s _) (rules.reply h r _)) (rules.carryOut _ _)

theorem handlePayload (source : Byte) (payload : List Byte) (s : State) : R s (Machine.handlePayload source payload s) := by
  unfold Machine.handlePayload
  split
  · exact rules.handleRequest _ _ s
  · exact rules.trans (rules.management s _) (rules.respond _ _ _ _)

theorem serve (s : State) : R s (Machine.serve s) := by
  have loop : ∀ fuel s, R s (serveLoop fuel s) := by
    intro fuel
    induction fuel with
    | zero => exact rules.refl
    | succ fuel ih =>
      intro s
      unfold serveLoop
      split
      · exact rules.refl s
      · split
        · exact rules.trans (rules.trans (rules.management s _) (rules.handlePayload _ _ _)) (ih _)
        · exact rules.refl s
  exact loop _ s

theorem takeRequest (source : Byte) (payload : List Byte) (s : State) : R s (Machine.takeRequest source payload s) := by
  have offered : R s (offerRequest source payload s) := by
    unfold offerRequest
    split
    · exact rules.management s _
    · exact rules.notices (count_only _ s)
  exact rules.trans offered (rules.serve _)

theorem discardBad (port : Port) (s : State) : R s (Machine.discardBad port s) := by
  cases port
  · exact rules.notices (count_only .uCheck s)
  · exact rules.notices (count_only .dCheck s)

theorem submit (h : Head) (r : Request) (s : State) : R s (Machine.submit h r s) := by
  unfold Machine.submit
  split_ifs
  · exact rules.discardBad .u s
  · exact rules.handleRequest h r s
  · exact rules.takeRequest _ _ s

theorem submitPayload (source : Byte) (payload : List Byte) (s : State) : R s (Machine.submitPayload source payload s) := by
  unfold Machine.submitPayload
  split_ifs
  · exact rules.discardBad .u s
  · exact rules.handlePayload _ _ s
  · exact rules.takeRequest _ _ s

theorem readStoreServed (s : State) : R s (Machine.readStoreServed s) := by
  unfold Machine.readStoreServed
  split
  · split
    · exact rules.trans (rules.trans (rules.reads (readUnits_only _ _ s)) (rules.screens (leaveQueue_only _)))
        (rules.respond _ _ _ _)
    · exact rules.refl s
  · exact rules.refl s

/-! ### Tools (R174 to R180) -/

theorem takeAnswer (source : Byte) (payload : List Byte) (s : State) : R s (Machine.takeAnswer source payload s) := by
  unfold Machine.takeAnswer
  dsimp only
  split
  · split_ifs
    · exact rules.refl s
    · exact rules.tools s _
    · exact rules.tools s _
    · exact rules.tools s _
  · exact rules.refl s

theorem censusExpired (s : State) : R s (Machine.censusExpired s) := by
  have marked := forChannels_keeps CaptionsOnly .refl (fun _ _ _ => .trans) _ (markPresent_only) s
  unfold Machine.censusExpired
  split
  · split
    · refine rules.trans ?_ (rules.notices (notify_only _ _).toNoticesOnly)
      refine rules.trans ?_ (rules.portD (leaveTool_only _))
      exact rules.trans (rules.screens marked.toScreensOnly) (rules.tools _ _)
    · exact rules.refl s
  · exact rules.refl s

theorem testFrameSent (s : State) : R s (Machine.testFrameSent s) := by
  unfold Machine.testFrameSent
  split
  · split
    · exact rules.tools s _
    · exact rules.tools s _
  · exact rules.refl s

theorem testGapExpired (s : State) : R s (Machine.testGapExpired s) := by
  unfold Machine.testGapExpired
  split
  · split
    · exact rules.trans (rules.tools s _) (rules.portD (offerTool_only _ _))
    · exact rules.refl s
  · exact rules.refl s

theorem addErrors (d : Nat) (s : State) : R s (Machine.addErrors d s) := by
  unfold Machine.addErrors
  split
  · split
    · exact rules.tools s _
    · refine rules.trans ?_ (foldl_keeps R rules.refl (fun _ _ _ => rules.trans) _
        (fun t _ => rules.notices (notify_only _ t).toNoticesOnly) _ _)
      exact rules.tools s _
  · exact rules.refl s

theorem takeEcho (payload : List Byte) (s : State) : R s (Machine.takeEcho payload s) := by
  unfold Machine.takeEcho
  split
  · dsimp only
    split_ifs
    · exact rules.refl s
    all_goals exact rules.trans (rules.tools s _) (rules.addErrors _ _)
  · exact rules.refl s

theorem testCompleted (s : State) : R s (Machine.testCompleted s) := by
  unfold Machine.testCompleted
  split
  · split
    · exact rules.trans (rules.tools s _) (rules.screens (endTest_only _ _ s).toScreensOnly)
    · exact rules.refl s
  · exact rules.refl s

/-! ### Frames and transmissions (R148 to R157) -/

theorem takeFromDesk (f : Frame) (s : State) : R s (Machine.takeFromDesk f s) := by
  unfold Machine.takeFromDesk
  split_ifs
  · exact rules.pos _ _ s
  · exact rules.go _ s
  · exact rules.refl s

theorem dispatchU (f : Frame) (s : State) : R s (Machine.dispatchU f s) := by
  have forwarded := rules.screens (forwardDown_only f s).toScreensOnly
  unfold Machine.dispatchU
  split_ifs
  · exact rules.discardBad .u s
  · exact rules.takeFromDesk f s
  · exact rules.takeRequest _ _ s
  · exact rules.notices (count_only _ s)
  · exact rules.trans forwarded (rules.takeFromDesk f _)
  · exact forwarded

theorem dispatchD (f : Frame) (s : State) : R s (Machine.dispatchD f s) := by
  unfold Machine.dispatchD
  split_ifs
  · exact rules.discardBad .d s
  · exact rules.takeAnswer _ _ s
  · exact rules.takeEcho _ s
  · exact rules.notices (count_only _ s)
  · exact rules.notices (forwardUp_only f s)

theorem dispatch (port : Port) (f : Frame) (s : State) : R s (Machine.dispatch port f s) := by
  cases port
  · exact rules.dispatchU f s
  · exact rules.dispatchD f s

theorem receive (port : Port) (bytes : List Byte) (s : State) : R s (Machine.receive port bytes s) := by
  unfold Machine.receive
  split
  · exact rules.dispatch port _ s
  · exact rules.discardBad port s

theorem dSent (s : State) : R s (Machine.dSent s) := by
  have told : ∀ t u, R u (toolSent t u) := fun t u => by
    unfold toolSent
    split
    · exact rules.testFrameSent u
    · exact rules.refl u
  unfold Machine.dSent
  split
  · exact rules.portD (chooseD_only s)
  · exact rules.trans (rules.trans (rules.link s _) (told _ _)) (rules.portD (chooseD_only _))

theorem uSent (s : State) : R s (Machine.uSent s) := by
  have told : ∀ u, R u (restartSent u) := fun u => by
    unfold restartSent
    split
    · exact rules.management u _
    · exact rules.refl u
  have chosen := fun u => rules.notices (chooseU_only u).toNoticesOnly
  unfold Machine.uSent
  split
  · exact rules.trans (chosen s) (rules.serve _)
  · exact rules.trans (rules.trans (rules.trans (rules.link s _) (told _)) (chosen _)) (rules.serve _)

/-! ### Commands and steps -/

/-- A command with a moment keeps to the relation when its effect does. -/
theorem during (m : Moment) (effect : State → State) (h : ∀ s, R s (effect s)) (s : State) {t : State}
    (ht : Machine.during m s effect = .next t) : R s t := by
  have moved := rules.trans (rules.clock s m.clock) (rules.faults _ m.faults)
  have moment : R s (atMoment m s) := rules.trans moved (rules.reads (atMoment_only m s))
  obtain rfl := Host.Outcome.next.inj ht
  split
  · exact rules.trans (rules.trans moment (h _)) (rules.notices (offerHalves_only _))
  · exact rules.refl s

theorem exec (c : Instr) (s : State) {t : State} (ht : Machine.exec c s = .next t) : R s t := by
  cases c with
  | powerUp straps cut =>
    obtain rfl := Host.Outcome.next.inj ht
    exact rules.powerUp straps cut s
  | powerFail cut =>
    obtain rfl := Host.Outcome.next.inj ht
    split
    · exact rules.powerFail cut s
    · exact rules.refl s
  | restartTakesEffect =>
    obtain rfl := Host.Outcome.next.inj ht
    split
    · exact rules.restart s
    · exact rules.refl s
  | badFrame m port bytes => exact rules.during m _ (rules.receive port bytes) s ht
  | foreignKindFrame m port _ _ _ _ _ => exact rules.during m _ (rules.dispatch port _) s ht
  | pos m _ _ _ _ | go m _ _ _ _ | req m _ _ _ _ | forwardDown m _ _ _ _ _ =>
    exact rules.during m _ (rules.dispatchU _) s ht
  | forwardUp m _ _ _ _ _ | answer m _ _ _ _ | testEcho m _ _ _ _ =>
    exact rules.during m _ (rules.dispatchD _) s ht
  | dTransmissionComplete m => exact rules.during m _ rules.dSent s ht
  | uTransmissionComplete m => exact rules.during m _ rules.uSent s ht
  | invalidRequest m source payload => exact rules.during m _ (rules.submitPayload source payload) s ht
  | readStoreServed m =>
    exact rules.during m _ (fun u => rules.trans (rules.readStoreServed u) (rules.serve _)) s ht
  | programComplete m => exact rules.during m _ rules.program s ht
  | eraseComplete m => exact rules.during m _ rules.erase s ht
  | verifyComplete m => exact rules.during m _ rules.verify s ht
  | checksumComplete m => exact rules.during m _ rules.checksum s ht
  | protectionUpdateComplete m => exact rules.during m _ rules.protection s ht
  | loadComplete m => exact rules.during m _ rules.load s ht
  | censusWindowExpiry m => exact rules.during m _ rules.censusExpired s ht
  | testGapExpiry m => exact rules.during m _ rules.testGapExpired s ht
  | testCompletion m => exact rules.during m _ rules.testCompleted s ht
  | silenceDeadlineExpiry m => exact rules.during m _ rules.silence s ht
  | horizonDeadlineExpiry m => exact rules.during m _ rules.horizon s ht
  | markDeadlineExpiry m => exact rules.during m _ rules.mark s ht
  | followDeadlineExpiry m => exact rules.during m _ rules.follow s ht
  | watchDeadlineExpiry m => exact rules.during m _ rules.watch s ht
  | readingDeadlineExpiry m n =>
    exact rules.during m _ (fun u => rules.screens (readingExpired_only n u).toScreensOnly) s ht
  | gapDeadlineExpiry m n => exact rules.during m _ (fun u => rules.screens (gapExpired_only n u).toScreensOnly) s ht
  | messageExpiry m placement => exact rules.during m _ (rules.message placement) s ht
  | stagingReadEnd m => exact rules.during m _ rules.staging s ht
  | identify m h | readStatus m h | readCounters m h | readConfig m h | setConfig m h _ | commitConfig m h
  | loadAct m h _ | start m h _ | hold m h | resume m h | stop m h | unload m h | restart m h | setPointer m h _
  | showMessage m h _ _ _ _ | clearMessage m h _ _ | readStore m h _ _ | programStore m h _ _ | eraseSector m h _
  | verifyAct m h _ | checksum m h _ _ | protectAct m h _ | unprotectAct m h _ | lockShow m h | readEcc m h
  | clearEcc m h | census m h | readCensus m h | screenTest m h _ _ _ _ _ | stopTest m h =>
    exact rules.during m _ (rules.submit h _) s ht

/-- Every step keeps to a relation that satisfies the rules. -/
theorem step {s t : State} (ht : Machine.step s = .next t) : R s t := by
  cases hp : s.pending with
  | nil =>
    rw [step_of_pending_nil hp] at ht
    obtain rfl := Host.Outcome.next.inj ht
    unfold tick
    split
    · exact rules.clock s _
    · exact rules.refl s
  | cons c rest =>
    have run : Machine.exec c (s.withPending rest) = .next t := by rw [← ht, Machine.step, hp]
    exact rules.trans (rules.pending s rest) (rules.exec c _ run)

end StepRules

end Sys2Proof.Machine
end

section
/-! The last-fired index stays below the pointer (R49): the firing unit through every block's operations. -/

namespace Sys2Proof.Machine

/-! ### The relation -/

/-- What led from s to t keeps the last-fired index below the pointer. -/
def KeepsFired (s t : State) : Prop := firedBelow s → firedBelow t

namespace KeepsFired

variable {s t u : State}

theorem refl (s : State) : KeepsFired s s := id

theorem trans (h : KeepsFired s t) (k : KeepsFired t u) : KeepsFired s u := fun hs => k (h hs)

/-- The same, the second part first: what it starts from then needs no name. -/
theorem after (k : KeepsFired t u) (h : KeepsFired s t) : KeepsFired s u := h.trans k

/-- Pointer and lf as before. -/
theorem of_same (hp : t.firing.pointer = s.firing.pointer) (hl : t.firing.last = s.firing.last) : KeepsFired s t := by
  intro hs i hi
  rw [hp]
  exact hs i (hl ▸ hi)

theorem of_firing (h : t.firing = s.firing) : KeepsFired s t := of_same (by rw [h]) (by rw [h])

/-- No cue is the last fired. -/
theorem of_none (h : t.firing.last = none) : KeepsFired s t := fun _ i hi => absurd (h.symm.trans hi) (by simp)

/-- The firing unit was reset (R49). -/
theorem of_initial (h : t.firing = Firing.initial) : KeepsFired s t := of_none (by rw [h]; rfl)

/-- A cue has just been fired (R59). -/
theorem of_fired {f : Firing} {i : Nat} {now : Time} (h : t.firing = f.fired i now) : KeepsFired s t := by
  intro _ j hj
  rw [h] at hj ⊢
  exact (Option.some.inj hj) ▸ Nat.lt_succ_self i

end KeepsFired

theorem ScreensOnly.keepsFired {s t : State} (h : ScreensOnly s t) : KeepsFired s t := .of_firing h.firing

theorem PortUOnly.keepsFired {s t : State} (h : PortUOnly s t) : KeepsFired s t := .of_firing h.firing

theorem ReadsOnly.firing {s t : State} (h : ReadsOnly s t) : t.firing = s.firing := by
  obtain ⟨_, _, _, h⟩ := h
  exact h.firing

/-! ### Fires and arming (R51, R59) -/

theorem arm_keepsFired (s : State) : KeepsFired s (arm s) := by
  refine arm_keeps KeepsFired .refl (fun _ _ _ => .trans) (fun s => ?_) (fun s => ?_) s
  · exact .of_same (armed_kept s).1 (armed_kept s).2.1
  · rcases fireDue_firing s with same | ⟨i, -, fired⟩
    · exact .of_firing same
    · exact .of_fired fired

theorem fireRun_keepsFired (start : Nat) (cause : FireCause) (s : State) : KeepsFired s (fireRun start cause s) :=
  .of_fired (fireRun_firing start cause s)

theorem fire_keepsFired (i : Nat) (cause : FireCause) (s : State) : KeepsFired s (fire i cause s) :=
  KeepsFired.trans (.of_fired (fireCue_kept i cause s).1) (arm_keepsFired _)

theorem markExpired_keepsFired (s : State) : KeepsFired s (markExpired s) := by
  unfold markExpired
  split
  · split
    · exact (fireRun_keepsFired _ _ s).trans (arm_keepsFired _)
    · exact .refl s
  · exact .refl s

theorem followExpired_keepsFired (s : State) : KeepsFired s (followExpired s) := by
  unfold followExpired
  split
  · split
    · exact fire_keepsFired _ _ s
    · exact .refl s
  · exact .refl s

theorem watchExpired_keepsFired (s : State) : KeepsFired s (watchExpired s) := by
  unfold watchExpired
  split
  · split
    · exact (fireRun_keepsFired _ _ s).trans (arm_keepsFired _)
    · exact .refl s
  · exact .refl s

/-! ### The pointer placed afresh, and reports (R67 to R69) -/

theorem placePointer_firing (p : Nat) (s : State) :
    (placePointer p s).firing.pointer = p ∧ (placePointer p s).firing.last = s.firing.last := by
  unfold placePointer
  dsimp only
  split <;> exact ⟨rfl, rfl⟩

/-- Forgetting leaves no last-fired index at or past an index (R67). -/
theorem forget_below {f : Firing} {i j : Nat} (h : (f.forget j).last = some i) : i < j := by
  unfold Firing.forget at h
  split at h
  · next last hlast =>
    split at h
    · cases h
    · next below =>
      obtain rfl := Option.some.inj (hlast.symm.trans h)
      exact Nat.lt_of_not_le below
  · next hnone => exact absurd (hnone.symm.trans h) (by simp)

/-- A re-seek places the pointer above whatever lf it leaves. -/
theorem reseekQuietly_keepsFired (j : Nat) (s : State) : KeepsFired s (reseekQuietly j s) := by
  obtain ⟨hpointer, hlast⟩ := placePointer_firing j (s.withFiring (s.firing.forget j))
  intro _ i hi
  rw [reseekQuietly, (flush_kept _).1] at hi ⊢
  rw [hpointer]
  exact forget_below (hlast ▸ hi)

theorem reseek_keepsFired (pos : Nat) (s : State) : KeepsFired s (reseek pos s) := by
  unfold reseek
  dsimp only
  split_ifs
  · exact fire_keepsFired _ _ s
  · exact (reseekQuietly_keepsFired _ s).trans (arm_keepsFired _)
  · exact reseekQuietly_keepsFired _ s

theorem consultCount_keepsFired (e : ReportEvent) (s : State) : KeepsFired s (consultCount e s) := by
  unfold consultCount
  split
  · split
    · exact .of_same rfl rfl
    · exact .refl s
  · exact .refl s

theorem onReport_keepsFired (e : ReportEvent) (s : State) : KeepsFired s (onReport e s) := by
  unfold onReport
  dsimp only
  refine KeepsFired.trans ?_ (arm_keepsFired _)
  split
  · split
    · exact reseek_keepsFired _ s
    · exact .refl s
  · refine KeepsFired.trans ?_ (consultCount_keepsFired e _)
    split
    · exact reseek_keepsFired _ s
    · exact .refl s

theorem track_keepsFired (out : Tracked) (s : State) : KeepsFired s (track out s) := by
  have counted := (countTimes_only .seqGap out.gaps (s.withTracker out.tracker)).trans
    (countTimes_only .rateReject out.rejects _)
  have said := counted.trans (notifyAll_only out.notices _).toNoticesOnly
  have same : KeepsFired s _ := .of_firing said.firing
  unfold track
  dsimp only
  split
  · exact same.trans (onReport_keepsFired _ _)
  · exact same

theorem takePos_keepsFired (seq : Byte) (payload : List Byte) (s : State) : KeepsFired s (takePos seq payload s) := by
  unfold takePos
  split
  · exact .refl s
  · exact track_keepsFired _ s

theorem trackDeadline_keepsFired (out : Tracker × List Notice × Bool) (s : State) :
    KeepsFired s (trackDeadline out s) := by
  have said : KeepsFired s (notifyAll out.2.1 (s.withTracker out.1)) := .of_firing (notifyAll_only _ _).firing
  unfold trackDeadline
  dsimp only
  split
  · exact said.trans (arm_keepsFired _)
  · exact said

theorem silenceExpiry_keepsFired (s : State) : KeepsFired s (silenceExpiry s) := by
  unfold silenceExpiry
  split
  · split
    · exact trackDeadline_keepsFired _ s
    · exact .refl s
  · exact .refl s

theorem horizonExpiry_keepsFired (s : State) : KeepsFired s (horizonExpiry s) := by
  unfold horizonExpiry
  split
  · split
    · exact trackDeadline_keepsFired _ s
    · exact .refl s
  · exact .refl s

/-! ### Replies (R164) -/

/-- A check that decides between two replies, each of which keeps to a relation. -/
theorem check_left {R : State → State → Prop} {s : State} {check : Prop} [Decidable check] {a b : Reply}
    (ha : R s a.left) (hb : R s b.left) : R s (if check then a else b).left := by
  split
  · exact ha
  · exact hb

theorem refuse_keepsFired (s : State) (result : Result) : KeepsFired s (refuse s result).left :=
  .of_firing (by rw [refuse_left])

theorem answer_keepsFired {s t : State} {result : Result} {data : List Byte} (h : KeepsFired s t) :
    KeepsFired s (Reply.answer t result data).left := h

/-- A refusal, or else a reply that keeps lf below the pointer. -/
theorem unlessRefused {s : State} {check : Prop} [Decidable check] {result : Result} {b : Reply}
    (hb : KeepsFired s b.left) : KeepsFired s (if check then refuse s result else b).left :=
  check_left (refuse_keepsFired s result) hb

/-! ### GO frames and changes of show state (R62 to R71, R136 to R141) -/

theorem goInRun_keepsFired (target : Label) (back : Bool) (f : Found) (s : State) :
    KeepsFired s (goInRun target back f s) := by
  have ignored := fun reason b => (ignoreGo_only reason target b f s).toScreensOnly.keepsFired
  have fired := fun i cause => fire_keepsFired i cause s
  unfold goInRun goBack goForward
  dsimp only
  split
  · split
    · split
      · exact fired _ _
      · exact ignored _ _
    · split
      · exact ignored _ _
      · split
        · split
          · exact fired _ _
          · exact ignored _ _
        · exact ignored _ _
  · split
    · split
      · exact fired _ _
      · exact ignored _ _
    · split
      · exact ignored _ _
      · split_ifs
        · exact fired _ _
        · exact fired _ _
        · exact ignored _ _

theorem resumeShow_keepsFired (cause : ShowCause) (tag : Option Byte) (s : State) :
    KeepsFired s (resumeShow cause tag s) :=
  (arm_keepsFired _).after (.of_firing (showNotice_only .hold cause tag (setShow .run s)).firing)

theorem takeGo_keepsFired (payload : List Byte) (s : State) : KeepsFired s (takeGo payload s) := by
  have ignored := fun target back => (ignoreGo_only .state target back (found s) s).toScreensOnly.keepsFired
  unfold takeGo
  dsimp only
  split
  · exact goInRun_keepsFired _ _ _ s
  · split
    · exact (resumeShow_keepsFired _ _ s).trans (goInRun_keepsFired _ _ _ _)
    · exact ignored _ _
  · exact ignored _ _
  · exact ignored _ _

theorem unloadShow_firing (tag : Byte) (s : State) : (unloadShow tag s).firing = Firing.initial := by
  unfold unloadShow
  extract_lets previous src₁ s1 s2 src₂ s3 s4 s5 src₃ s6
  have reset : s4.firing = Firing.initial := rfl
  have emptied : s5.firing = s4.firing := (emptyChannels_only .off s4).firing
  have kept : s6.firing = s5.firing := withStore_firing s5 _
  rw [(showNotice_only _ _ _ s6).firing, kept, emptied, reset]

theorem doStop_keepsFired (tag : Byte) (s : State) : KeepsFired s (doStop tag s).left := by
  obtain ⟨-, hfiring, -⟩ := stopShow_blocks tag s
  have reset : KeepsFired s (stopShow tag s) := .of_initial hfiring
  exact unlessRefused (answer_keepsFired reset)

theorem doUnload_keepsFired (tag confirm : Byte) (s : State) : KeepsFired s (doUnload tag confirm s).left := by
  have reset : KeepsFired s (unloadShow tag s) := .of_initial (unloadShow_firing tag s)
  exact unlessRefused (unlessRefused (answer_keepsFired reset))

theorem darkCaption_only (n : Fin 8) (s : State) : CaptionsOnly s (darkCaption n s) := by
  unfold darkCaption
  dsimp only
  split
  · exact (CaptionsOnly.channel s n _).trans (putCaption_only _ _).toCaptionsOnly
  · exact .refl s

theorem restartEffect_keepsFired (s : State) : KeepsFired s (restartEffect s) := by
  have dark := forChannels_keeps CaptionsOnly .refl (fun _ _ _ => .trans) _ darkCaption_only (restarted s)
  unfold restartEffect
  dsimp only
  split
  · split
    · exact .of_initial dark.firing
    · exact .of_initial ((showNotice_only _ _ _ _).firing.trans dark.firing)
  · exact .refl s

/-! ### Configuration (R167) -/

/-- A channel's reaction to a new configuration leaves the firing unit. -/
theorem channelChanged_firing (old : Configuration) (n : Fin 8) (s : State) :
    (channelChanged old n s).firing = s.firing := by
  have disabled : (channelDisabled n s).firing = s.firing := by
    unfold channelDisabled
    extract_lets s1 s2
    split
    · split
      · exact (endTest_only _ _ s2).firing
      · rfl
    · rfl
  unfold channelChanged
  extract_lets a b s1 src s2
  have h1 : s1.firing = s.firing := by
    unfold s1
    split
    · exact disabled
    · rfl
  have h2 : s2.firing = s.firing := by
    unfold s2
    split
    · exact h1
    · exact h1
  split
  · exact (writeCaption_only n s2).firing.trans h2
  · exact h2

theorem configTaken_keepsFired (pairs : List ConfigPair) (s : State) : KeepsFired s (configTaken pairs s) := by
  unfold configTaken
  extract_lets old s1 src s2 s3
  have h2 : s2.firing = s.firing := by
    unfold s2
    split <;> rfl
  have h3 : s3.firing = s2.firing :=
    forChannels_keeps (fun s t => t.firing = s.firing) (fun _ => rfl) (fun _ _ _ h k => k.trans h) _
      (channelChanged_firing old) s2
  split
  · exact (arm_keepsFired s3).after (.of_firing (h3.trans h2))
  · exact .of_firing (h3.trans h2)

/-! ### Requests, by the block that answers (R164) -/

theorem doSetConfig_keepsFired (pairs : List ConfigPair) (s : State) : KeepsFired s (doSetConfig pairs s).left := by
  unfold doSetConfig
  refine unlessRefused ?_
  split
  · exact .refl s
  · exact unlessRefused (unlessRefused (configTaken_keepsFired pairs s))

theorem doCommitConfig_keepsFired (s : State) : KeepsFired s (doCommitConfig s).left := by
  unfold doCommitConfig
  split <;> exact .of_firing rfl

theorem doStart_keepsFired (tag force : Byte) (s : State) : KeepsFired s (doStart tag force s).left :=
  unlessRefused <| unlessRefused <| check_left (a := .answer s .missing _) (KeepsFired.refl s) <|
    (arm_keepsFired _).after (.of_firing (showNotice_only .preset .start (some tag) (setShow .run s)).firing)

theorem doHold_keepsFired (tag : Byte) (s : State) : KeepsFired s (doHold tag s).left :=
  unlessRefused <| (showNotice_only .run .hold (some tag) _).keepsFired.after (.of_same rfl rfl)

theorem doSetPointer_keepsFired (label : Label) (s : State) : KeepsFired s (doSetPointer label s).left := by
  unfold doSetPointer
  refine unlessRefused ?_
  split
  · exact refuse_keepsFired s _
  · next i _ =>
    obtain ⟨reading, queue, suspended, placed⟩ := pointerSet_eq i s
    exact .of_none (congrArg (·.firing.last) placed)

theorem doShowMessage_keepsFired (tag confirm level mask : Byte) (duration : BitVec 16) (text : List Byte) (s : State) :
    KeepsFired s (doShowMessage tag confirm level mask duration text s).left := by
  unfold doShowMessage
  split
  · exact refuse_keepsFired s _
  · refine unlessRefused <| unlessRefused <| unlessRefused <| unlessRefused ?_
    dsimp only [Reply.left]
    split
    · exact .refl s
    · exact .of_firing (tellChannels_only _ _ _).firing

theorem doClearMessage_keepsFired (confirm level mask : Byte) (s : State) :
    KeepsFired s (doClearMessage confirm level mask s).left := by
  unfold doClearMessage
  split
  · exact refuse_keepsFired s _
  · exact unlessRefused <| unlessRefused <| .of_firing (tellChannels_only _ _ _).firing

theorem messageExpired_keepsFired (i : Nat) (s : State) : KeepsFired s (messageExpired i s) := by
  unfold messageExpired
  split
  · exact .refl s
  · split
    · exact .refl s
    · split
      · exact (tellChannels_only _ _ _).keepsFired.after (.of_firing (notify_only _ _).firing)
      · exact .refl s

theorem doProgramStore_keepsFired (tag : Byte) (address : BitVec 32) (data : List Byte) (s : State) :
    KeepsFired s (doProgramStore tag address data s).left := by
  have checked : KeepsFired s (checkReads s) := .of_firing (readUnits_only _ _ s).firing
  exact unlessRefused <| unlessRefused <| checked.trans <| unlessRefused <| unlessRefused <| .of_firing rfl

theorem doEraseSector_keepsFired (tag : Byte) (sector : BitVec 16) (s : State) :
    KeepsFired s (doEraseSector tag sector s).left := by
  have checked : KeepsFired s (checkReads s) := .of_firing (readUnits_only _ _ s).firing
  exact unlessRefused <| unlessRefused <| checked.trans <| unlessRefused <| .of_firing rfl

theorem doCensus_keepsFired (tag : Byte) (s : State) : KeepsFired s (doCensus tag s).left :=
  unlessRefused <| unlessRefused <| .of_firing (offerTool_only _ _).firing

theorem doScreenTest_keepsFired (tag channel : Byte) (count : BitVec 16) (length : Byte) (gap : BitVec 16) (mode : Byte)
    (s : State) : KeepsFired s (doScreenTest tag channel count length gap mode s).left := by
  unfold doScreenTest
  split
  · exact check_left (unlessRefused <| unlessRefused <| .of_firing (offerTool_only _ _).firing) (refuse_keepsFired s _)
  · exact refuse_keepsFired s _

theorem doStopTest_keepsFired (s : State) : KeepsFired s (doStopTest s).left := by
  unfold doStopTest
  split
  · exact .of_firing (endTest_only _ _ s).firing
  · exact .refl s

theorem replyOf_keepsFired (h : Head) (r : Request) (s : State) : KeepsFired s (replyOf h r s).left := by
  cases r with
  | identify | readConfig | readEcc | readCensus => exact .refl s
  | readStatus | readCounters | clearEcc => exact .of_firing rfl
  | setConfig pairs => exact doSetConfig_keepsFired pairs s
  | commitConfig => exact doCommitConfig_keepsFired s
  | loadAct act => exact unlessRefused <| unlessRefused <| unlessRefused <| unlessRefused <| .of_firing rfl
  | start force => exact doStart_keepsFired h.tag force s
  | hold => exact doHold_keepsFired h.tag s
  | resume => exact unlessRefused (resumeShow_keepsFired _ _ s)
  | stop => exact doStop_keepsFired h.tag s
  | unload => exact doUnload_keepsFired h.tag h.confirm s
  | setPointer label => exact doSetPointer_keepsFired label s
  | showMessage level mask duration text => exact doShowMessage_keepsFired h.tag h.confirm level mask duration text s
  | clearMessage level mask => exact doClearMessage_keepsFired h.confirm level mask s
  | readStore address length => exact unlessRefused <| unlessRefused <| unlessRefused <| .of_firing rfl
  | programStore address data => exact doProgramStore_keepsFired h.tag address data s
  | eraseSector sector => exact doEraseSector_keepsFired h.tag sector s
  | verifyAct act => exact unlessRefused <| unlessRefused <| .of_firing rfl
  | checksum address length => exact unlessRefused <| unlessRefused <| .of_firing rfl
  | protectAct act => exact unlessRefused <| unlessRefused <| unlessRefused <| .of_firing rfl
  | unprotectAct act => exact unlessRefused <| unlessRefused <| unlessRefused <| .of_firing rfl
  | lockShow => exact unlessRefused <| .of_firing rfl
  | census => exact doCensus_keepsFired h.tag s
  | screenTest channel count length gap mode => exact doScreenTest_keepsFired h.tag channel count length gap mode s
  | stopTest => exact doStopTest_keepsFired s
  | restart => exact unlessRefused <| .of_firing rfl

/-! ### Completions (R41, R119 to R128) -/

/-- The OP_DONE of an operation leaves the firing unit. -/
theorem opDone_firing (op : OpName) (tag : Byte) (result : DoneResult) (data : List Byte) (s : State) :
    (opDone op tag result data s).firing = s.firing := (opDone_only op tag result data s).firing

theorem programCompleted_keepsFired (s : State) : KeepsFired s (programCompleted s) := by
  unfold programCompleted
  split
  · exact .of_firing (opDone_firing _ _ _ _ _)
  · exact .refl s

theorem eraseCompleted_keepsFired (s : State) : KeepsFired s (eraseCompleted s) := by
  unfold eraseCompleted
  split
  · split
    · exact .refl s
    · exact .of_firing (opDone_firing _ _ _ _ _)
  · exact .refl s

theorem protectionCompleted_keepsFired (s : State) : KeepsFired s (protectionCompleted s) := by
  unfold protectionCompleted
  split
  · exact .of_firing (opDone_firing _ _ _ _ _)
  · exact .of_firing (opDone_firing _ _ _ _ _)
  · exact .refl s

theorem finishReads_keepsFired (reader : Reader) {finish : Option Nat → State → State}
    (hf : ∀ failure s, KeepsFired s (finish failure s)) (s : State) : KeepsFired s (finishReads reader finish s) := by
  unfold finishReads
  dsimp only
  split
  · exact .refl s
  · exact KeepsFired.trans (.of_firing (readOn_only _ _ s).firing) ((hf _ _).after (.of_firing rfl))

theorem verifyCompleted_keepsFired (s : State) : KeepsFired s (verifyCompleted s) := by
  unfold verifyCompleted
  split
  · refine finishReads_keepsFired _ (fun failure t => ?_) s
    unfold verifyDone
    split <;> exact .of_firing (opDone_firing _ _ _ _ _)
  · exact .refl s

theorem checksumCompleted_keepsFired (s : State) : KeepsFired s (checksumCompleted s) := by
  unfold checksumCompleted
  split
  · refine finishReads_keepsFired _ (fun failure t => ?_) s
    unfold checksumDone
    split <;> exact .of_firing (opDone_firing _ _ _ _ _)
  · exact .refl s

theorem loadSucceeds_keepsFired (tag : Byte) (act : Nat) (region : Region) (langs : List Code) (beat : Nat)
    (cues : List Cue) (s : State) : KeepsFired s (loadSucceeds tag act region langs beat cues s) := by
  unfold loadSucceeds
  extract_lets s1 s2
  have reset : KeepsFired s s1 := .of_initial rfl
  have told : KeepsFired s1 s2 := (opDone_only _ _ _ _ _).keepsFired
  have emptied := (emptyChannels_only .blank s2).toScreensOnly.trans (stage_only _)
  exact ((reset.trans told).trans emptied.keepsFired).trans (showNotice_only _ _ _ _).keepsFired

/-- A load that fails leaves the firing unit; one that succeeds resets it (R49, R127). -/
theorem loadEnds_keepsFired (tag : Byte) (act : Nat) (finish : LoadEnd) (s : State) :
    KeepsFired s (loadEnds tag act finish s) := by
  have failed : ∀ result data, KeepsFired s (loadFails tag result data s) :=
    fun _ _ => .of_firing (opDone_firing _ _ _ _ _)
  cases finish with
  | success region langs beat cues =>
    exact loadSucceeds_keepsFired tag act region langs beat cues s
  | noAct => exact failed _ _
  | corrupt index => exact failed _ _
  | check => exact failed _ _
  | ecc a => exact failed _ _

theorem loadCompleted_keepsFired (s : State) : KeepsFired s (loadCompleted s) := by
  unfold loadCompleted
  split
  · exact finishReads_keepsFired _ (fun failure t => loadEnds_keepsFired _ _ _ t) s
  · exact .refl s

theorem stagingReadEnded_keepsFired (s : State) : KeepsFired s (stagingReadEnded s) := by
  have taken : ∀ r failure text u, KeepsFired u (takeReadEnd r failure text u) := fun r failure text u =>
    .of_firing ((takeReadEnd_only r failure text u).firing.trans (resultTaken_blocks r _ u).2.1)
  unfold stagingReadEnded
  split
  · split
    · refine ((taken _ _ _ _).trans (stage_only _).keepsFired).after (.of_firing ?_)
      exact (readUnits_only .staging _ s).firing
    · exact .refl s
  · exact .refl s

/-- Every block's operations keep the last-fired index below the pointer. -/
theorem keepsFired_rules : StepRules KeepsFired where
  refl := .refl
  trans := .trans
  pending _ _ := .of_firing rfl
  clock _ _ := .of_firing rfl
  faults _ _ := .of_firing rfl
  management _ _ := .of_firing rfl
  link _ _ := .of_firing rfl
  tools _ _ := .of_firing rfl
  screens h := h.keepsFired
  reads h := .of_firing h.firing
  reply := replyOf_keepsFired
  pos := takePos_keepsFired
  go := takeGo_keepsFired
  silence := silenceExpiry_keepsFired
  horizon := horizonExpiry_keepsFired
  mark := markExpired_keepsFired
  follow := followExpired_keepsFired
  watch := watchExpired_keepsFired
  message := messageExpired_keepsFired
  staging := stagingReadEnded_keepsFired
  program := programCompleted_keepsFired
  erase := eraseCompleted_keepsFired
  verify := verifyCompleted_keepsFired
  checksum := checksumCompleted_keepsFired
  protection := protectionCompleted_keepsFired
  load := loadCompleted_keepsFired
  restart := restartEffect_keepsFired
  powerFail _ _ := .of_none rfl
  powerUp _ _ _ := .of_none rfl

end Sys2Proof.Machine

namespace Sys2Proof.Proofs

open Sys2Proof.Machine

/-- Settles O20: a fire makes lf the cue below the pointer, a re-seek forgets an lf at or past the pointer it places, and
every other operation leaves both, or removes lf. -/
theorem lastFiredStaysBelowThePointer : Obligations.LastFiredStaysBelowThePointer :=
  fun _ _ hs hstep => keepsFired_rules.step hstep hs

end Sys2Proof.Proofs
end

section
/-! What a fire's items tell and count (R79, R88, R89), and what a fire comes to as a whole (R59, R61). -/

namespace Sys2Proof.Machine

/-! ### The width of arriving items -/

/-- At most what arriving items may change: the width of screens, on a busy port U no notice but TITLE_SLIP and
TITLE_SKIPPED, and no count of overrun cues. -/
structure ItemsOnly (s t : State) : Prop extends ScreensOnly s t where
  quiet : s.link.sendingU.isSome = true → slipsDisabled s → sameNotices s t
  overruns : t.counters[CounterName.overrunCues.index] = s.counters[CounterName.overrunCues.index]

section order
variable {s t u : State}

theorem ItemsOnly.refl (s : State) : ItemsOnly s s := ⟨.refl s, fun _ _ => .refl s, rfl⟩

theorem ItemsOnly.trans (h : ItemsOnly s t) (k : ItemsOnly t u) : ItemsOnly s u := by
  refine ⟨h.toScreensOnly.trans k.toScreensOnly, fun busy untold => (h.quiet busy untold).trans (k.quiet ?_ ?_),
    k.overruns.trans h.overruns⟩
  · rw [(h.grows busy).1]
    exact busy
  · obtain ⟨-, -, -, hconfig, -, -⟩ := h.outside
    rw [slipsDisabled, hconfig]
    exact untold

/-- What leaves counters and management block alone counts and tells nothing. -/
theorem ScreensOnly.toItemsOnly (h : ScreensOnly s t) (hc : t.counters = s.counters)
    (hm : t.management = s.management) : ItemsOnly s t :=
  ⟨h, fun _ _ => by rw [sameNotices, hm]; exact ⟨rfl, rfl⟩, by rw [hc]⟩

/-- One channel's titles that count no overrun cue. -/
theorem ChannelOnly.toItemsOnly {n : Fin 8} (h : ChannelOnly n s t)
    (hc : t.counters[CounterName.overrunCues.index] = s.counters[CounterName.overrunCues.index]) : ItemsOnly s t :=
  ⟨h.toScreensOnly, fun busy untold => h.quiet busy untold.1, hc⟩

theorem ItemsOnly.channel (s : State) (n : Fin 8) (x : Channel) : ItemsOnly s (s.withChannel n x) :=
  (ChannelOnly.channel s n x).toItemsOnly rfl

end order

/-! ### The operations of a channel (R79 to R89) -/

/-- What counting makes of the counters (R170). -/
theorem count_counters (name : CounterName) (s : State) :
    (count name s).counters = s.counters.set name.index (bumped s.counters[name.index]) := by
  unfold count
  dsimp only
  split <;> rfl

/-- Counting touches its own counter alone. -/
theorem count_other {name other : CounterName} (h : other.index ≠ name.index) (s : State) :
    (count name s).counters[other.index] = s.counters[other.index] := by
  have apart : name.index.val ≠ other.index.val := fun e => h (Fin.ext e.symm)
  simp [count_counters, apart]

theorem recompose_items (n : Fin 8) (why : Arrived) (s : State) : ItemsOnly s (recompose n why s) :=
  (recompose_channelOnly n why s).toItemsOnly (by rw [recompose_counters])

theorem takeEffect_items (n : Fin 8) (i : Item) (s : State) : ItemsOnly s (takeEffect n i s) := by
  refine (takeEffect_channelOnly n i s).toItemsOnly ?_
  unfold takeEffect
  extract_lets slip s1 src s2
  have told : s2.counters = s.counters := by
    change s1.counters = s.counters
    unfold s1
    split
    · exact (notify_only _ s).counters
    · rfl
  split
  · rw [count_other (by decide), told]
  · exact congrArg (fun x : Vector Byte 14 => x[CounterName.overrunCues.index]) told

theorem showTitle_items (n : Fin 8) (i : Item) (s : State) : ItemsOnly s (showTitle n i s) :=
  ((ItemsOnly.channel s n _).trans (recompose_items n _ _)).trans (takeEffect_items n i _)

theorem takeBlank_items (n : Fin 8) (i : Item) (s : State) : ItemsOnly s (takeBlank n i s) :=
  ((ItemsOnly.channel s n _).trans (recompose_items n _ _)).trans (takeEffect_items n i _)

theorem release_items (n : Fin 8) (s : State) : ItemsOnly s (release n s) := by
  have loop : ∀ fuel s, ItemsOnly s (releaseLoop n fuel s) := by
    intro fuel
    induction fuel with
    | zero => exact .refl
    | succ fuel ih =>
      intro s
      unfold releaseLoop
      dsimp only
      split
      · exact .refl s
      · split
        · exact .refl s
        · split
          · exact .channel s n _
          · have taken := ItemsOnly.channel s n
            split
            · exact ((taken _).trans (takeBlank_items n _ _)).trans (ih _)
            · split
              · exact (taken _).trans (showTitle_items n _ _)
              · exact ((taken _).trans (.channel _ n _)).trans (recompose_items n _ _)
  unfold release
  split
  · exact loop _ s
  · exact .refl s

theorem catchUpJoin_items (n : Fin 8) (s : State) : ItemsOnly s (catchUpJoin n s) := by
  unfold catchUpJoin
  dsimp only
  split
  · split
    · exact (ItemsOnly.channel s n _).trans (release_items n _)
    · exact .channel s n _
  · exact .refl s

theorem dropOldest_items (n : Fin 8) (s : State) : ItemsOnly s (dropOldest n s) := by
  refine ⟨(dropOldest_only n s).toScreensOnly, fun busy untold => ?_, ?_⟩
  · unfold dropOldest
    split
    · next i rest _ =>
      have dropped := count_only .skippedTitles (s.withChannel n { s.channels[n] with queue := rest })
      have place := (dropped.grows busy).1
      obtain ⟨-, -, -, hconfig, -, -⟩ := dropped.outside
      rw [notify_disabled (by rw [place]; exact busy) (by rw [hconfig]; exact untold.2)]
      exact count_notices .skippedTitles _
    · exact .refl s
  · unfold dropOldest
    split
    · rw [(notify_only _ _).counters, count_other (by decide)]
      rfl
    · rfl

/-- Withdrawing touches the awaited list alone (R47). -/
theorem withdrawLost_eq (n : Fin 8) (lost : List Item) (s : State) :
    ∃ awaited, withdrawLost n lost s = s.withStaging { s.staging with awaited := awaited } := by
  refine foldl_keeps (fun s t => ∃ awaited, t = s.withStaging { s.staging with awaited := awaited }) (fun s => ⟨_, rfl⟩)
    (fun s t u => ?_) _ (fun s i => ?_) lost s
  · rintro ⟨a, rfl⟩ ⟨b, rfl⟩
    exact ⟨b, rfl⟩
  · dsimp only
    split
    · exact ⟨_, rfl⟩
    · exact ⟨_, rfl⟩

theorem withdrawLost_items (n : Fin 8) (lost : List Item) (s : State) : ItemsOnly s (withdrawLost n lost s) := by
  obtain ⟨awaited, h⟩ := withdrawLost_eq n lost s
  refine (withdrawLost_only n lost s).toItemsOnly ?_ ?_
  · rw [h]; rfl
  · rw [h]; rfl

theorem itemJoins_items (n : Fin 8) (i : Item) (s : State) : ItemsOnly s (itemJoins n i s) := by
  unfold itemJoins
  extract_lets full lost s1 src s2 s3
  have h1 : ItemsOnly s s1 := by
    unfold s1
    split
    · exact dropOldest_items n s
    · exact .refl s
  have h2 : ItemsOnly s s2 := h1.trans (.channel _ n _)
  have h3 : ItemsOnly s s3 := h2.trans (withdrawLost_items n _ _)
  split
  · exact h3.trans (catchUpJoin_items n _)
  · exact h3.trans (release_items n _)
  · exact h3.trans (release_items n _)
  · exact h3
  · exact h3

theorem itemResyncs_items (n : Fin 8) (i : Item) (s : State) : ItemsOnly s (itemResyncs n i s) := by
  unfold itemResyncs
  extract_lets c lost emptied src s0 s1
  split
  · exact (((ItemsOnly.channel s n _).trans (withdrawLost_items n _ _)).trans (recompose_items n _ _)).trans
      (release_items n _)
  · have h1 : ItemsOnly s s1 := (ItemsOnly.channel s n _).trans (withdrawLost_items n _ _)
    split
    · exact h1.trans (showTitle_items n i _)
    · exact h1.trans (takeBlank_items n i _)

theorem itemArrives_items (n : Fin 8) (i : Item) (s : State) : ItemsOnly s (itemArrives n i s) := by
  unfold itemArrives
  split
  · exact withdrawLost_items n _ s
  · split
    · exact itemResyncs_items n i s
    · exact itemJoins_items n i s

theorem awaitText_items (k : Key) (n : Fin 8) (s : State) : ItemsOnly s (awaitText k n s) := by
  obtain ⟨-, -, hcounters, hmanagement⟩ := stage_kept (s.withStaging (s.staging.await k n))
  exact (awaitText_only k n s).toItemsOnly hcounters hmanagement

theorem fireChannel_items (i : Nat) (resync : Bool) (n : Fin 8) (s : State) :
    ItemsOnly s (fireChannel i resync n s) := by
  unfold fireChannel
  split
  · exact .refl s
  · split
    · dsimp only
      split
      · exact (awaitText_items _ n s).trans (itemArrives_items n _ _)
      · exact itemArrives_items n _ s
    · exact itemArrives_items n _ s
    · exact .refl s

theorem handedOver_items (i : Nat) (cause : FireCause) (s : State) : ItemsOnly s (handedOver i cause s) :=
  forChannels_keeps ItemsOnly .refl (fun _ _ _ => .trans) _ (fireChannel_items i _) s

/-! ### CUE_FIRED (R61) -/

/-- On a busy port U a fire up to its notices tells nothing where slips and skips are not told. -/
theorem fireMade_quiet {i : Nat} {cause : FireCause} {s : State} (busy : s.link.sendingU.isSome = true)
    (untold : slipsDisabled s) : sameNotices s (fireMade i cause s) := by
  obtain ⟨-, -, -, -, hmanagement⟩ := fireMade_kept i cause s
  have handed := (handedOver_items i cause s).quiet busy untold
  rw [sameNotices, hmanagement]
  exact handed

/-- Given room, a fire's first notice is its CUE_FIRED. -/
theorem fireCue_admits {i : Nat} {cause : FireCause} {s : State} (room : roomFor s .cueFired) (untold : slipsDisabled s) :
    Admitted s (fireCue i cause s) (firedNotice i cause s) := by
  have silent := fireMade_quiet (i := i) (cause := cause) room.1 untold
  have only := (fireMade_kept i cause s).1
  have place : roomFor (fireMade i cause s) (firedNotice i cause s).kind := only.keepsRoom silent room
  have busy := (notify_only (firedNotice i cause s) (fireMade i cause s)).grows place.1
  refine ((notify_admitted _ _ place).since silent).mono ((fireCue_told i cause s).grows ?_).2
  rw [busy.1]
  exact place.1

/-! ### What holds once a fire was made (R59) -/

/-- lf is the cue below the pointer and the previous-fire time is the present. -/
def justFired (s : State) : Prop :=
  s.firing.last = some (s.firing.pointer - 1) ∧ s.firing.previous = some s.clock

/-- What fires do to the firing unit: the pointer moves on, and what holds of a fire just made goes on holding. -/
structure Advances (s t : State) : Prop where
  pointer : s.firing.pointer ≤ t.firing.pointer
  fired : justFired s → justFired t

theorem Advances.refl (s : State) : Advances s s := ⟨Nat.le_refl _, id⟩

theorem Advances.trans {s t u : State} (h : Advances s t) (k : Advances t u) : Advances s u :=
  ⟨h.pointer.trans k.pointer, fun hs => k.fired (h.fired hs)⟩

/-- Pointer, lf and previous-fire time as before, at the same present. -/
theorem Advances.of_same {s t : State} (hp : t.firing.pointer = s.firing.pointer) (hl : t.firing.last = s.firing.last)
    (hv : t.firing.previous = s.firing.previous) (hc : t.clock = s.clock) : Advances s t :=
  ⟨hp.ge, fun ⟨last, previous⟩ => ⟨by rw [hl, hp, last], by rw [hv, hc, previous]⟩⟩

theorem justFired_of_fired {s : State} {f : Firing} {i : Nat} (h : s.firing = f.fired i s.clock) : justFired s := by
  unfold justFired
  rw [h]
  exact ⟨rfl, rfl⟩

theorem arm_advances (s : State) : Advances s (arm s) := by
  refine arm_keeps Advances .refl (fun _ _ _ => .trans) (fun s => ?_) (fun s => ?_) s
  · obtain ⟨hpointer, hlast, hprevious⟩ := armed_kept s
    exact .of_same hpointer hlast hprevious rfl
  · intro s1
    obtain ⟨-, -, -, -, hclock, -⟩ := (fireDue_only (dueFire s1) s1).outside
    have hpointer : s1.firing.pointer = s.firing.pointer := (armed_kept s).1
    rcases fireDue_firing s with same | ⟨i, past, fired⟩
    · exact .of_same (congrArg (·.pointer) same) (congrArg (·.last) same) (congrArg (·.previous) same) hclock
    · refine ⟨?_, fun _ => justFired_of_fired (f := s1.firing) (i := i) ?_⟩
      · rw [fired, hpointer]
        exact Nat.le_succ_of_le past
      · rw [fired, hclock]
        rfl

/-! ### A fire as a whole, offered its COUNTER_HALF notices (R59, R61, R170) -/

section fired
variable {i : Nat} {cause : FireCause} {s : State}

/-- What a fire leaves once it is armed on and the notices held back are offered. -/
theorem armed_on {u : State} (width : FiresOnly s u) (hf : u.firing = s.firing.fired i s.clock) :
    i < (offerHalves (arm u)).firing.pointer ∧ FireKeeps s (offerHalves (arm u)) := by
  have offered := offerHalves_only (arm u)
  have only := (width.trans (arm_only u)).trans offered.toFiresOnly
  obtain ⟨-, -, -, -, hclock, -⟩ := width.outside
  obtain ⟨-, -, -, -, hclock', -⟩ := (width.trans (arm_only u)).outside
  have moved := arm_advances u
  obtain ⟨hlast, hprevious⟩ := moved.fired (justFired_of_fired (by rw [hf, hclock]))
  obtain ⟨hprotection, -, hregion, -, hcells⟩ := only.storeKept
  have past : i + 1 ≤ (arm u).firing.pointer := by
    have h := moved.pointer
    rw [hf] at h
    exact h
  refine ⟨?_, ?_, ?_, only.outside, only.score, only.placements, only.control, only.requests, hprotection, hregion,
    hcells⟩
  · rw [offered.firing]
    exact past
  · rw [offered.firing]
    exact hlast
  · rw [offered.firing, hprevious, hclock']

/-- Where the new pointer cue is not due, a fire ends with arming it, and touches channels and counters no more. -/
theorem armed_quietly {u : State} (hrun : s.control.show_ = .run) (width : FiresOnly s u)
    (hf : u.firing = s.firing.fired i s.clock) (hn : nothingDue (pastFire i s)) :
    (offerHalves (arm u)).firing = armed (pastFire i s) ∧ (offerHalves (arm u)).channels = u.channels ∧
      (offerHalves (arm u)).counters = u.counters := by
  have past : FiresOnly (pastFire i s) u := { width with }
  have halt : arm u = u.withFiring (armed u) :=
    arm_of_nothingDue (by rw [width.control]; exact hrun) (nothingDue_congr past hf hn)
  have offered := offerHalves_only (arm u)
  refine ⟨?_, ?_, ?_⟩
  · rw [offered.firing, halt]
    exact armed_congr past hf
  · rw [offered.channels, halt]
    rfl
  · rw [offerHalves_counters, halt]
    rfl

/-- Notices that a stretch has admitted stay at the head while the fires go on and the held back notices are offered. -/
theorem armed_grows {u : State} {ns : List QueuedNotice} (busy : u.link.sendingU.isSome = true)
    (h : ns <+: u.management.notices) : ns <+: (offerHalves (arm u)).management.notices :=
  h.trans (((arm_only u).trans (offerHalves_only _).toFiresOnly).grows busy).2

/-- A fire in RUN (R59, R61). -/
theorem fire_fires (hrun : s.control.show_ = .run) : Fires i cause s (offerHalves (fire i cause s)) := by
  have width := fireCue_only i cause s
  obtain ⟨hfiring, hchannels, -⟩ := fireCue_kept i cause s
  obtain ⟨hpast, hkeeps⟩ := armed_on width hfiring
  refine ⟨hpast, hkeeps, fun hn => ?_, fun room untold => ?_⟩
  · obtain ⟨harmed, hsame, -⟩ := armed_quietly hrun width hfiring hn
    exact ⟨harmed, hsame.trans hchannels⟩
  · refine armed_grows ?_ (fireCue_admits room untold)
    rw [(width.grows room.1).1]
    exact room.1

end fired

end Sys2Proof.Machine
end

section
/-! GO frames (R62 to R66): one ignored, one handled in RUN, and one that releases a hold (R138). -/

namespace Sys2Proof.Machine

/-! ### A GO ignored (R66) -/

section ignored
variable {reason : GoReason} {target : Label} {back : Bool} {f : Found} {s : State}

/-- The notice of a GO ignored. -/
def ignoredNotice (reason : GoReason) (target : Label) (back : Bool) (f : Found) (s : State) : Notice :=
  .goIgnored reason target back s.control.show_ f.pointer f.last (millis s.clock)

theorem ignoreGo_of_late :
    ignoreGo .late target back f s = notify (ignoredNotice .late target back f s) (count .lateGo s) := rfl

theorem ignoreGo_of_other (h : reason ≠ .late) :
    ignoreGo reason target back f s = notify (ignoredNotice reason target back f s) s := by
  unfold ignoreGo
  rw [if_neg h]
  rfl

theorem ignoreGo_counters :
    (ignoreGo reason target back f s).counters =
      if reason = .late then s.counters.set CounterName.lateGo.index (bumped s.counters[CounterName.lateGo.index])
      else s.counters := by
  by_cases late : reason = .late
  · subst late
    rw [ignoreGo_of_late, (notify_only _ _).counters, if_pos rfl, count_counters]
  · rw [ignoreGo_of_other late, (notify_only _ _).counters, if_neg late]

/-- Given room, a GO ignored is told. -/
theorem ignoreGo_admits (room : roomFor s .goIgnored) :
    Admitted s (ignoreGo reason target back f s) (ignoredNotice reason target back f s) := by
  by_cases late : reason = .late
  · subst late
    have silent := count_notices .lateGo s
    have place : roomFor (count .lateGo s) (ignoredNotice .late target back f s).kind :=
      (count_only .lateGo s).toFiresOnly.keepsRoom silent room
    rw [ignoreGo_of_late]
    exact (notify_admitted _ _ place).since silent
  · rw [ignoreGo_of_other late]
    exact notify_admitted _ _ room

/-- A GO ignored, with the COUNTER_HALF notices of the step offered (R66, R170). -/
theorem ignoreGo_ignored : GoIgnored reason target back f s (offerHalves (ignoreGo reason target back f s)) := by
  have ignored := ignoreGo_only reason target back f s
  have offered := offerHalves_only (ignoreGo reason target back f s)
  obtain ⟨hblocks, hcontrol, htools⟩ := (ignored.trans offered).sameBlocks
  refine ⟨hblocks, hcontrol, htools, ?_, fun room => (ignoreGo_admits room).mono (offered.grows ?_).2⟩
  · rw [offerHalves_counters, ignoreGo_counters]
  · rw [(ignored.grows room.1).1]
    exact room.1

end ignored

/-! ### A GO handled in RUN (R63, R65) -/

section handled
variable {target : Label} {f : Found} {s : State}

theorem goForward_at (hz : target.number = 0) (hp : s.firing.pointer < s.table.cues.length) :
    goForward target f s = fire s.firing.pointer .go s := by
  simp only [goForward, hz, hp, if_true]

theorem goForward_end (hz : target.number = 0) (hp : s.table.cues.length ≤ s.firing.pointer) :
    goForward target f s = ignoreGo .atEnd target false f s := by
  simp only [goForward, hz, Nat.not_lt.2 hp, if_true, if_false]

theorem goForward_unknown (hz : target.number ≠ 0) (hs : s.table.search target = none) :
    goForward target f s = ignoreGo .unknown target false f s := by
  simp only [goForward, hz, hs, if_false]

theorem goForward_found {i : Nat} (hz : target.number ≠ 0) (hs : s.table.search target = some i) :
    goForward target f s =
      if i = s.firing.pointer then fire i .go s
      else if s.firing.pointer < i then fire i .goSkip s
      else ignoreGo .late target false f s := by
  simp only [goForward, hz, hs, if_false]

theorem goBack_last {i : Nat} (hz : target.number = 0) (hl : s.firing.last = some (i + 1)) :
    goBack target f s = fire i .back s := by
  simp only [goBack, hz, hl, if_true]

theorem goBack_first (hz : target.number = 0) (hl : s.firing.last = none ∨ s.firing.last = some 0) :
    goBack target f s = ignoreGo .range target true f s := by
  rcases hl with hl | hl
  · simp only [goBack, hz, hl, if_true]
  · simp only [goBack, hz, hl, if_true]

theorem goBack_unknown (hz : target.number ≠ 0) (hs : s.table.search target = none) :
    goBack target f s = ignoreGo .unknown target true f s := by
  simp only [goBack, hz, hs, if_false]

theorem goBack_found {i lf : Nat} (hz : target.number ≠ 0) (hs : s.table.search target = some i)
    (hl : s.firing.last = some lf) :
    goBack target f s = if i ≤ lf then fire i .back s else ignoreGo .range target true f s := by
  simp only [goBack, hz, hs, hl, if_false]

theorem goBack_never {i : Nat} (hz : target.number ≠ 0) (hs : s.table.search target = some i)
    (hl : s.firing.last = none) : goBack target f s = ignoreGo .range target true f s := by
  simp only [goBack, hz, hs, hl, if_false]

/-- A GO in RUN fires the cue it names or is ignored with its reason. -/
theorem goInRun_handled (back : Bool) (hrun : s.control.show_ = .run) :
    GoHandled target back f s (offerHalves (goInRun target back f s)) := by
  refine ⟨?_, ?_⟩
  · rintro rfl
    rw [show goInRun target false f s = goForward target f s from rfl]
    refine ⟨fun hz hp => ?_, fun hz hp => ?_, fun hz hs => ?_, fun i hz hs => ⟨fun hi => ?_, fun hi => ?_, fun hi => ?_⟩⟩
    · rw [goForward_at hz hp]
      exact fire_fires hrun
    · rw [goForward_end hz hp]
      exact ignoreGo_ignored
    · rw [goForward_unknown hz hs]
      exact ignoreGo_ignored
    · rw [goForward_found hz hs, if_pos hi]
      exact fire_fires hrun
    · rw [goForward_found hz hs, if_neg hi.ne', if_pos hi]
      exact fire_fires hrun
    · rw [goForward_found hz hs, if_neg hi.ne, if_neg (Nat.lt_asymm hi)]
      exact ignoreGo_ignored
  · rintro rfl
    rw [show goInRun target true f s = goBack target f s from rfl]
    refine ⟨fun i hz hl => ?_, fun hz hl => ?_, fun hz hs => ?_, fun i hz hs => ⟨fun lf hl hi => ?_, fun hl => ?_,
      fun lf hl hi => ?_⟩⟩
    · rw [goBack_last hz hl]
      exact fire_fires hrun
    · rw [goBack_first hz hl]
      exact ignoreGo_ignored
    · rw [goBack_unknown hz hs]
      exact ignoreGo_ignored
    · rw [goBack_found hz hs hl, if_pos hi]
      exact fire_fires hrun
    · rw [goBack_never hz hs hl]
      exact ignoreGo_ignored
    · rw [goBack_found hz hs hl, if_neg (Nat.not_le.2 hi)]
      exact ignoreGo_ignored

end handled

/-! ### The show enters RUN (R72, R136, R138) -/

section enter
variable {previous : ShowState} {cause : ShowCause} {tag : Option Byte} {s : State}

/-- The show entering RUN: SHOW_STATE, then the arming. -/
def enterRun (previous : ShowState) (cause : ShowCause) (tag : Option Byte) (s : State) : State :=
  arm (showNotice previous cause tag (setShow .run s))

theorem enterRun_only : FiresOnly (setShow .run s) (enterRun previous cause tag s) :=
  (showNotice_only previous cause tag _).toFiresOnly.trans (arm_only _)

/-- What keeps to a fire's width from the show in RUN has entered RUN. -/
theorem FiresOnly.entersRun {t : State} (h : FiresOnly (setShow .run s) t) : EntersRun s t := by
  obtain ⟨hprotection, -, hregion, -, hcells⟩ := h.storeKept
  exact ⟨h.control, h.outside, h.score, h.placements, h.requests, hprotection, hregion, hcells⟩

/-- Where the pointer cue is not due the show enters RUN with SHOW_STATE and its arming alone. -/
theorem enterRun_of_nothingDue (hn : nothingDue (setShow .run s)) :
    enterRun previous cause tag s =
      (showNotice previous cause tag (setShow .run s)).withFiring (armed (setShow .run s)) := by
  have told := showNotice_only previous cause tag (setShow .run s)
  rw [enterRun, arm_of_nothingDue (by rw [told.control]; rfl) (nothingDue_congr told.toFiresOnly told.firing hn),
    armed_congr told.toFiresOnly told.firing]

/-- Given room, SHOW_STATE comes first among the notices. -/
theorem enterRun_admits (room : roomFor s .showState) :
    Admitted s (enterRun previous cause tag s)
      (.showState previous .run cause tag s.control.act (pointerPlace s) (lastPlace s) (millis s.clock)) := by
  have place : roomFor (setShow .run s) .showState := room
  have told := showNotice_only previous cause tag (setShow .run s)
  have admitted : Admitted (setShow .run s) (showNotice previous cause tag (setShow .run s))
      (.showState previous .run cause tag s.control.act (pointerPlace s) (lastPlace s) (millis s.clock)) :=
    notify_admitted _ _ place
  refine (admitted.since ⟨rfl, rfl⟩).mono ((arm_only _).grows ?_).2
  rw [(told.grows room.1).1]
  exact room.1

end enter

/-! ### A GO as a command (R62, R149) -/

/-- A GO frame to the engine is taken as a GO. -/
theorem dispatchU_go_own {source seq : Byte} {payload : List Byte} {s : State} (hf : payloadFits payload = true) :
    dispatchU ⟨s.link.address, source, kindGo, seq, payload⟩ s = takeGo payload s := by
  have fits : ¬ Config.payloadMax < payload.length := Nat.not_lt.2 (of_decide_eq_true hf)
  have other : kindGo ≠ kindPos := by decide
  simp only [dispatchU, fits, takeFromDesk, other, if_true, if_false, or_true]

/-- A GO frame to the engine as a command. -/
theorem execGo_awake {m : Moment} {source seq : Byte} {payload : List Byte} {s₀ s : State} (hs : Awake m s₀ s)
    (hf : payloadFits payload = true) :
    exec (.go m s.link.address source seq payload) s₀ = .next (offerHalves (takeGo payload s)) := by
  rw [← dispatchU_go_own (source := source) (seq := seq) hf]
  exact during_awake _ hs

theorem takeGo_of_run {payload : List Byte} {s : State} (h : s.control.show_ = .run) :
    takeGo payload s = goInRun (labelAt payload 0) ((fieldByte payload 3).getLsbD 0) (found s) s := by
  simp only [takeGo, h]

theorem takeGo_of_release {payload : List Byte} {s : State} (h : s.control.show_ = .hold)
    (hr : s.config.engine.goReleases = true) :
    takeGo payload s =
      goInRun (labelAt payload 0) ((fieldByte payload 3).getLsbD 0) (found s) (resumeShow .go none s) := by
  simp only [takeGo, h, hr, if_true]

theorem takeGo_of_other {payload : List Byte} {s : State}
    (h : s.control.show_ = .dark ∨ s.control.show_ = .preset ∨
      (s.control.show_ = .hold ∧ s.config.engine.goReleases = false)) :
    takeGo payload s = ignoreGo .state (labelAt payload 0) ((fieldByte payload 3).getLsbD 0) (found s) s := by
  rcases h with h | h | ⟨h, hr⟩
  · simp only [takeGo, h]
  · simp only [takeGo, h]
  · simp only [takeGo, h, hr, Bool.false_eq_true, if_false]

end Sys2Proof.Machine

namespace Sys2Proof.Proofs

open Sys2Proof.Machine

/-- Settles O17: in RUN by `goInRun_handled`; out of a hold the show enters RUN first, and the GO is handled from there. -/
theorem goFiresTheNextCue : Obligations.GoFiresTheNextCue := by
  constructor
  · intro m source seq payload s₀ s hs hf hrun
    refine ⟨_, execGo_awake hs hf, ?_⟩
    rw [takeGo_of_run hrun]
    exact goInRun_handled _ hrun
  · intro m source seq payload s₀ s hs hf hhold hreleases r
    have entered : FiresOnly (setShow .run s) r := enterRun_only
    have handled := goInRun_only (labelAt payload 0) ((fieldByte payload 3).getLsbD 0) (found s) r
    have offered := (offerHalves_only
      (goInRun (labelAt payload 0) ((fieldByte payload 3).getLsbD 0) (found s) r)).toFiresOnly
    have hrun : r.control.show_ = .run := by rw [entered.control]; rfl
    refine ⟨_, execGo_awake hs hf, ?_⟩
    rw [takeGo_of_release hhold hreleases]
    refine ⟨((entered.trans handled).trans offered).entersRun, fun room => ?_, entered.entersRun, fun hn => ?_,
      goInRun_handled _ hrun⟩
    · refine (enterRun_admits (cause := .go) room).mono ((handled.trans offered).grows ?_).2
      rw [(entered.grows room.1).1]
      exact room.1
    · have told := showNotice_only .hold .go none (setShow .run s)
      have halt : r = _ := enterRun_of_nothingDue hn
      rw [halt]
      exact ⟨rfl, ⟨told.channels, told.placements⟩, told.staging, told.stores, told.portD, told.tool, told.counters⟩

/-- Settles O18: a GO ignored with reason STATE counts nothing, so that all but the notice is as before. -/
theorem goIsIgnoredOutsideRun : Obligations.GoIsIgnoredOutsideRun := by
  intro m source seq payload s₀ s hs hf hshow
  refine ⟨_, execGo_awake hs hf, ?_⟩
  rw [takeGo_of_other hshow]
  obtain ⟨hblocks, hcontrol, htools, hcounters, hadmitted⟩ := ignoreGo_ignored (reason := .state)
    (target := labelAt payload 0) (back := (fieldByte payload 3).getLsbD 0) (f := found s) (s := s)
  exact ⟨hblocks, ⟨hcontrol, htools, hcounters⟩, hadmitted⟩

end Sys2Proof.Proofs
end

section
/-! HOLD, START and RESUME (R71, R72, R136 to R138), and what arming gives each kind of pointer cue (R51 to R57). -/

namespace Sys2Proof.Machine

/-! ### Answers to requests that tell a change of show state -/

/-- On a busy port U an answer only adds to the notices. -/
theorem respond_grows {s : State} (g : Handling) (result : Result) (data : List Byte)
    (busy : s.link.sendingU.isSome = true) : s.management.notices <+: (respond g result data s).management.notices := by
  obtain ⟨u, counted, placed⟩ := respond_only g result data s
  have first := counted.grows busy
  have second := placed.grows (by rw [withManagement_link, first.1]; exact busy)
  exact first.2.trans second.2

/-- A request's effect of port U's width, once answered, keeps to that width from the state that found none in hand. -/
theorem PortUOnly.answered {s u : State} {g : Handling} (h : PortUOnly (takeInHand g s) u)
    (hs : s.management.handling = none) (hh : s.management.halves = []) (result : Result) (data : List Byte) :
    PortUOnly s (respond g result data u) := by
  obtain ⟨hfifo, -, hvalid⟩ := h.requests
  have ended : PortUOnly s (u.withManagement { u.management with handling := none }) :=
    { h with requests := ⟨hfifo, hs.symm, hvalid⟩ }
  rw [respond_plain g result data u (h.halves.trans hh)]
  exact ended.trans (placeResponse_only _ _)

/-! ### HOLD (R71, R137) -/

/-- The show in HOLD with its pointer cue paused. -/
def held (s : State) : State := pauseFiring (setShow .hold s)

theorem doHold_of_run {tag : Byte} {s : State} (h : s.control.show_ = .run) :
    doHold tag s = .answer (showNotice .run .hold (some tag) (held s)) .ok [] := if_neg fun hne => hne h

/-- A FOLLOW deadline ahead becomes its remainder. -/
theorem pausedTrigger_ahead {d now : Time} {kept : Bool} (h : due d now = false) :
    pausedTrigger now (.follow d kept) = .paused (d - now).toNat := by
  simp only [pausedTrigger, h, Bool.false_eq_true, if_false, elapsed]

/-! ### START and RESUME (R136, R138) -/

theorem channelsWhere_none {p : Fin 8 → Bool} (h : ∀ n, p n = false) : channelsWhere p = 0 := by
  simp [channelsWhere, allChannels, h]

/-- With no enabled, unmuted channel MISSING none fails START (R136). -/
theorem missingChannels_none {s : State} (h : ∀ n : Fin 8, s.config.channels[n].enabled = true →
    s.config.channels[n].muted = false → s.channels[n].present ≠ .missing) : missingChannels s = 0 := by
  refine channelsWhere_none fun n => ?_
  cases enabled : s.config.channels[n].enabled with
  | false => rfl
  | true =>
    cases muted : s.config.channels[n].muted with
    | true => rfl
    | false => exact decide_eq_false (h n enabled muted)

theorem doStart_of_preset {tag force : Byte} {s : State} (hshow : s.control.show_ = .preset)
    (htool : s.tools.running = .none) (hclear : flagByte force = true ∨ missingChannels s = 0) :
    doStart tag force s = .answer (enterRun .preset .start (some tag) s) .ok [] := by
  have idle : ¬ toolRuns s = true := by simp [toolRuns, htool]
  have clear : ¬ (¬ flagByte force = true ∧ missingChannels s ≠ 0) := fun ⟨unforced, missing⟩ =>
    hclear.elim unforced missing
  rw [doStart, if_neg fun hne => hne hshow, if_neg idle, if_neg clear]
  rfl

theorem doResume_of_hold {tag : Byte} {s : State} (h : s.control.show_ = .hold) :
    doResume tag s = .answer (enterRun .hold .resume (some tag) s) .ok [] := if_neg fun hne => hne h

/-- A START fits a frame (R148, R164). -/
theorem startPayload_fits (force tag confirm : Byte) :
    (requestPayload (.start force) tag confirm).length ≤ Config.payloadMax := (by decide : 4 ≤ 240)

/-- A ready request that has the show enter RUN: its answer, what it keeps, its arming and its SHOW_STATE. -/
theorem request_entersRun {m : Moment} {s₀ s : State} (h : Head) (r : Request) {previous : ShowState}
    {cause : ShowCause} (hs : Ready m s₀ s) (hf : (requestPayload r h.tag h.confirm).length ≤ Config.payloadMax)
    (hr : replyOf h r (inHand h r s) = .answer (enterRun previous cause (some h.tag) (inHand h r s)) .ok []) :
    ∃ t, during m s₀ (submit h r) = .next t ∧ Answered t (responseTo h r .ok []) ∧ EntersRun s t ∧
      (nothingDue (setShow .run s) → t.firing = armed (setShow .run s)) ∧
      (roomFor s .showState → Admitted s t (.showState previous .run cause (some h.tag) s.control.act (pointerPlace s)
        (lastPlace s) (millis s.clock))) := by
  obtain ⟨hrun, hanswered⟩ := request_answered h r _ _ _ hs hf hr
  have width : FiresOnly (setShow .run (inHand h r s)) (enterRun previous cause (some h.tag) (inHand h r s)) :=
    enterRun_only
  obtain ⟨hfiring, -, -, -⟩ := respond_beside (handlingOf h (requestCode r)) .ok []
    (enterRun previous cause (some h.tag) (inHand h r s))
  refine ⟨_, hrun, hanswered, (FiresOnly.answered (s := setShow .run s) width hs.handling .ok []).entersRun,
    fun hn => ?_, fun room => ?_⟩
  · have due : nothingDue (setShow .run (inHand h r s)) := hn
    rw [hfiring, enterRun_of_nothingDue due]
    rfl
  · have place : roomFor (inHand h r s) .showState := room
    have busy := (width.grows place.1).1
    refine (enterRun_admits place).mono (respond_grows _ _ _ ?_)
    rw [busy]
    exact place.1

/-! ### What arming gives the pointer cue (R51 to R57) -/

section armed
variable {s : State} {c : Cue}

theorem armed_past (h : s.table.cues.length ≤ s.firing.pointer) :
    armed s = { s.firing with trigger := .none, watch := none } := by
  simp only [armed, List.getElem?_eq_none_iff.2 h]

/-- A MARK cue takes the deadline of the tracker's answer less its lead, the present, or none (R52). -/
theorem armed_mark (hc : s.table.cues[s.firing.pointer]? = some c) (hk : c.trigger = .mark) :
    (armed s).watch = none ∧
      (∀ x, s.tracker.arrival s.config.engine.horizon c.mark = .reachedAt x →
        (armed s).trigger = .mark (x - BitVec.ofNat 48 (1000 * c.lead))) ∧
      (s.tracker.arrival s.config.engine.horizon c.mark = .already → (armed s).trigger = .mark s.clock) ∧
      (s.tracker.arrival s.config.engine.horizon c.mark = .noTime → (armed s).trigger = .none) := by
  simp only [armed, hc, hk, markDeadline]
  refine ⟨trivial, fun x hx => ?_, fun hx => ?_, fun hx => ?_⟩
  · rw [hx]; rfl
  · rw [hx]
  · rw [hx]

/-- A COUNT cue keeps a counter, and else loads its parameter (R55). -/
theorem armed_count {k : Nat} (hc : s.table.cues[s.firing.pointer]? = some c) (hk : c.trigger = .count k) :
    (armed s).watch = none ∧ (∀ n, s.firing.trigger = .count n → (armed s).trigger = .count n) ∧
      ((∀ n, s.firing.trigger ≠ .count n) → (armed s).trigger = .count k) := by
  simp only [armed, hc, hk]
  refine ⟨trivial, fun n hn => by rw [hn], fun hn => ?_⟩
  cases ht : s.firing.trigger with
  | count n => exact absurd ht (hn n)
  | none | mark | follow | paused => rfl

/-- A FOLLOW cue without a previous fire has no trigger, and the watch of its lead (R56, R57). -/
theorem armed_follow_first {k : Nat} (hc : s.table.cues[s.firing.pointer]? = some c) (hk : c.trigger = .follow k)
    (hp : s.firing.previous = none) : (armed s).trigger = .none ∧ (armed s).watch = watchFor s c.lead := by
  simp only [armed, hc, hk, hp, and_self]

/-- A FOLLOW cue takes a paused remainder from the present on, keeps a deadline so armed, and else counts from the
previous fire (R56, R72). -/
theorem armed_follow_after {k : Nat} {x : Time} (hc : s.table.cues[s.firing.pointer]? = some c)
    (hk : c.trigger = .follow k) (hp : s.firing.previous = some x) :
    (armed s).watch = none ∧
      (∀ left, s.firing.trigger = .paused left → (armed s).trigger = .follow (s.clock + BitVec.ofNat 48 left) true) ∧
      (∀ d, s.firing.trigger = .follow d true → (armed s).trigger = .follow d true) ∧
      ((∀ left, s.firing.trigger ≠ .paused left) → (∀ d, s.firing.trigger ≠ .follow d true) →
        (armed s).trigger = .follow (x + BitVec.ofNat 48 (1000 * k)) false) := by
  simp only [armed, hc, hk, hp]
  refine ⟨trivial, fun left hl => by rw [hl]; rfl, fun d hd => by rw [hd], fun unpaused unkept => ?_⟩
  cases ht : s.firing.trigger with
  | paused left => exact absurd ht (unpaused left)
  | follow d kept =>
    cases kept with
    | true => exact absurd ht (unkept d)
    | false => rfl
  | none | mark | count => rfl

/-- A MANUAL cue has no trigger, and the watch of its lead (R57). -/
theorem armed_manual (hc : s.table.cues[s.firing.pointer]? = some c) (hk : c.trigger = .manual) :
    (armed s).trigger = .none ∧ (armed s).watch = watchFor s c.lead := by
  simp only [armed, hc, hk, and_self]

end armed

end Sys2Proof.Machine

namespace Sys2Proof.Proofs

open Sys2Proof.Machine

/-- Settles O44: the show held and its pointer cue paused, then SHOW_STATE and the answer at port U's width. -/
theorem holdPausesTheFiringUnit : Obligations.HoldPausesTheFiringUnit := by
  intro m h s₀ s hs hshow
  have reply : replyOf h .hold (inHand h .hold s) = _ := doHold_of_run hshow
  obtain ⟨hrun, hanswered⟩ := request_answered h .hold _ _ _ hs (requestPayload_fits rfl _ _) reply
  have told := showNotice_only .run .hold (some h.tag) (held (inHand h .hold s))
  have only := PortUOnly.answered (s := held s) told hs.handling hs.halves .ok []
  have hfiring := only.firing
  have trigger : ∀ x, s.firing.trigger = x → (held s).firing.trigger = pausedTrigger s.clock x := by
    rintro x rfl
    rfl
  refine ⟨_, hrun, hanswered, only.control, by rw [hfiring]; rfl, by rw [hfiring]; rfl, by rw [hfiring]; rfl,
    by rw [hfiring]; rfl, fun d hd => ?_, fun k hk => ?_, fun d kept hd hn => ?_,
    only.outside, only.score, only.staging, ⟨only.channels, only.placements⟩, only.stores, only.portD, only.requests,
    only.tool, only.counters, fun room => ?_⟩
  · rw [hfiring, trigger _ hd]
    rfl
  · rw [hfiring, trigger _ hk]
    rfl
  · rw [hfiring, trigger _ hd, pausedTrigger_ahead hn]
  · have place : roomFor (held (inHand h .hold s)) .showState := room
    have admitted : Admitted (held (inHand h .hold s))
        (showNotice .run .hold (some h.tag) (held (inHand h .hold s)))
        (.showState .run .hold .hold (some h.tag) s.control.act (pointerPlace s) (lastPlace s) (millis s.clock)) :=
      notify_admitted _ _ place
    refine (admitted.since ⟨rfl, rfl⟩).mono (respond_grows _ _ _ ?_)
    rw [(told.grows place.1).1]
    exact place.1

/-- Settles O45: both requests have the show enter RUN; and the table of arming, by the kind of the pointer cue. -/
theorem startAndResumeEnterRun : Obligations.StartAndResumeEnterRun := by
  refine ⟨fun m h force s₀ s hs hshow htool hclear => ?_, fun m h s₀ s hs hshow => ?_, fun s => ?_⟩
  · refine request_entersRun h (.start force) hs (startPayload_fits _ _ _) ?_
    refine doStart_of_preset hshow htool (hclear.imp (fun hforce => ?_) missingChannels_none)
    rw [hforce]
    rfl
  · exact request_entersRun h .resume hs (requestPayload_fits rfl _ _) (doResume_of_hold hshow)
  · intro f e watched
    refine ⟨armed_past, fun c hc => ⟨armed_mark hc, fun k hk => armed_count hc hk, fun k hk => ⟨armed_follow_first hc hk,
      fun x hp => armed_follow_after hc hk hp⟩, armed_manual hc, armed_kept s⟩⟩

end Sys2Proof.Proofs
end

section
/-! A passed deadline fires (R52 to R61), a fire creates each channel's item (R60), and an item arrives (R79 to R81). -/

namespace Sys2Proof.Machine

/-! ### Overrun cues (R54, R58, R61) -/

section overrun
variable {q : Nat} {s : State}

/-- The OVERRUN notice of the cues from the pointer to the one before q. -/
def passedNotice (q : Nat) (s : State) : Notice :=
  .overrun (q - s.firing.pointer) (s.table.place s.firing.pointer) (s.table.place (q - 1)) (s.table.place q)

theorem overrun_of_past (h : s.firing.pointer < q) :
    overrun q s = notify (passedNotice q s) (countTimes .overrunCues (q - s.firing.pointer) s) := if_pos h

theorem overrun_of_none (h : ¬ s.firing.pointer < q) : overrun q s = s := if_neg h

theorem countTimes_notices (name : CounterName) (k : Nat) (s : State) : sameNotices s (countTimes name k s) := by
  induction k generalizing s with
  | zero => exact .refl s
  | succ k ih => exact (count_notices name s).trans (ih _)

/-- The overrun cues are counted, to 255 (R61, R170). -/
theorem overrun_counter (h : s.firing.pointer ≤ q) :
    (overrun q s).counters[CounterName.overrunCues.index].toNat =
      min 255 (s.counters[CounterName.overrunCues.index].toNat + (q - s.firing.pointer)) := by
  rcases Nat.eq_or_lt_of_le h with rfl | past
  · rw [overrun_of_none (Nat.lt_irrefl _)]
    omega
  · have told := (notify_only (passedNotice q s) (countTimes .overrunCues (q - s.firing.pointer) s)).counters
    rw [overrun_of_past past, ← countTimes_counter]
    exact congrArg (fun x : Vector Byte 14 => x[CounterName.overrunCues.index].toNat) told

/-- Given room, OVERRUN joins at the tail of the notices and takes the discarded flag with it. -/
theorem overrun_tells (h : s.firing.pointer < q) (room : roomFor s .overrun) :
    (overrun q s).management.notices = s.management.notices ++ [⟨s.management.discarded, passedNotice q s⟩] ∧
      (overrun q s).management.discarded = false := by
  have counted := countTimes_only .overrunCues (q - s.firing.pointer) s
  have silent := countTimes_notices .overrunCues (q - s.firing.pointer) s
  have place : roomFor (countTimes .overrunCues (q - s.firing.pointer) s) (passedNotice q s).kind :=
    counted.toFiresOnly.keepsRoom silent room
  rw [overrun_of_past h, notify_room _ _ place, ← silent.1, ← silent.2]
  exact ⟨rfl, rfl⟩

/-- On a busy port U OVERRUN disabled tells nothing. -/
theorem overrun_untold (busy : s.link.sendingU.isSome = true)
    (disabled : s.config.engine.notices[NoticeKind.overrun.index] = false) : sameNotices s (overrun q s) := by
  by_cases h : s.firing.pointer < q
  · have counted := countTimes_only .overrunCues (q - s.firing.pointer) s
    obtain ⟨-, -, -, hconfig, -, -⟩ := counted.outside
    rw [overrun_of_past h, notify_disabled (by rw [(counted.grows busy).1]; exact busy) (by rw [hconfig]; exact disabled)]
    exact countTimes_notices _ _ s
  · rw [overrun_of_none h]
    exact .refl s

end overrun

/-! ### A run of due cues fired (R54, R58) -/

section run
variable {start : Nat} {cause : FireCause} {s : State}

/-- A fire after the overrun cues were told leaves CUE_FIRED behind what the queue then held. -/
theorem fireCue_admits_after {q : Nat} (room : roomFor (overrun q s) .cueFired) (untold : slipsDisabled s) :
    ((overrun q s).management.notices ++ [⟨(overrun q s).management.discarded, firedNotice q cause s⟩]) <+:
      (fireCue q cause (overrun q s)).management.notices := by
  have passed := (overrun_only q s).toFiresOnly
  obtain ⟨-, -, -, hconfig, -, -⟩ := passed.outside
  rw [← firedNotice_congr passed]
  exact fireCue_admits room (by rw [slipsDisabled, hconfig]; exact untold)

/-- In RUN a run that starts at the pointer or past it fires its last cue. -/
theorem fireRun_fires (hrun : s.control.show_ = .run) (hstart : s.firing.pointer ≤ start) (hcause : cause ≠ .resync) :
    FiresRun (stackedRun s s.table.cues.length start) cause s (offerHalves (arm (fireRun start cause s))) := by
  have hq : s.firing.pointer ≤ stackedRun s s.table.cues.length start := hstart.trans stackedRun_ge
  have width := fireRun_only start cause s
  have hfiring := fireRun_firing start cause s
  have made : fireRun start cause s = fireCue _ cause (overrun _ s) := rfl
  generalize stackedRun s s.table.cues.length start = q at hq hfiring made ⊢
  obtain ⟨hpast, hkeeps⟩ := armed_on width hfiring
  obtain ⟨-, hchannels, hcounters⟩ := fireCue_kept q cause (overrun q s)
  have passed := overrun_only q s
  have stays : ∀ {ns : List QueuedNotice}, s.link.sendingU.isSome = true →
      ns <+: (fireRun start cause s).management.notices →
      ns <+: (offerHalves (arm (fireRun start cause s))).management.notices := fun busy =>
    armed_grows (by rw [(width.grows busy).1]; exact busy)
  have kindRoom : s.management.notices.length + 1 < Config.noticePlaces → s.firing.pointer < q → roomFor s .overrun →
      roomFor s .cueFired → roomFor (overrun q s) .cueFired := fun places past room fired => by
    obtain ⟨-, -, -, hconfig, -, -⟩ := passed.outside
    refine ⟨by rw [(passed.grows room.1).1]; exact room.1, by rw [hconfig]; exact fired.2.1, ?_⟩
    rw [(overrun_tells past room).1, List.length_append]
    exact places
  refine ⟨hpast, ⟨hq.trans_lt hpast, hkeeps⟩, fun same => ?_, fun hn => ?_, fun past room => ?_,
    fun past room fired places untold => ?_, fun past disabled fired untold => ?_⟩
  · rw [made, overrun_of_none (by omega)]
    exact fire_fires hrun
  · obtain ⟨harmed, ichannels, icounters⟩ := armed_quietly hrun width hfiring hn
    have unsynced : decide (cause = .resync) = false := decide_eq_false hcause
    refine ⟨harmed, ?_, ?_⟩
    · rw [ichannels, made, hchannels, handedOver, unsynced]
    · rw [← overrun_counter hq, ← (handedOver_items q cause (overrun q s)).overruns]
      have same := icounters.trans ((congrArg State.counters made).trans hcounters)
      exact congrArg (fun x : Vector Byte 14 => x[CounterName.overrunCues.index].toNat) same
  · refine stays room.1 (made ▸ ?_)
    change (s.management.notices ++ [⟨s.management.discarded, passedNotice q s⟩]) <+: _
    rw [← (overrun_tells past room).1]
    refine ((fireCue_only q cause (overrun q s)).grows ?_).2
    rw [(passed.grows room.1).1]
    exact room.1
  · have admitted := fireCue_admits_after (cause := cause) (kindRoom places past room fired) untold
    rw [(overrun_tells past room).1, (overrun_tells past room).2, List.append_assoc] at admitted
    exact stays room.1 (made ▸ admitted)
  · have silent := overrun_untold (q := q) fired.1 disabled
    have admitted := fireCue_admits_after (cause := cause) (passed.toFiresOnly.keepsRoom silent fired) untold
    rw [silent.1, silent.2] at admitted
    exact stays fired.1 (made ▸ admitted)

end run

/-! ### The item a fire creates (R60) -/

section create
variable {i : Nat} {resync : Bool} {n : Fin 8} {s : State}

theorem fireChannel_unserved (h : servedBy s n = none) : fireChannel i resync n s = s := by
  simp only [fireChannel, h]

variable {lang : Nat} {c : Cue}

theorem fireChannel_absent (h : servedBy s n = some lang) (hc : s.table.cues[i]? = some c)
    (hs : c.slots[lang]? = none ∨ c.slots[lang]? = some .absent) : fireChannel i resync n s = s := by
  rcases hs with hs | hs
  · simp only [fireChannel, h, hc, Option.bind_some, hs]
  · simp only [fireChannel, h, hc, Option.bind_some, hs]

/-- The item of a fire, of a kind, with a text or none. -/
def madeItem (s : State) (i : Nat) (resync : Bool) (lang : Nat) (kind : ItemKind) (text : Option TitleText) : Item :=
  ⟨i, s.table.labelAt i, kind, lang, text, s.clock, resync, false⟩

theorem fireChannel_blank (h : servedBy s n = some lang) (hc : s.table.cues[i]? = some c)
    (hs : c.slots[lang]? = some .blank) :
    fireChannel i resync n s = itemArrives n (madeItem s i resync lang .blank none) s := by
  simp only [fireChannel, h, hc, Option.bind_some, hs]
  rfl

/-- A TEXT slot's item goes to the channel with what the staging set answers, after it has joined the awaited list. -/
theorem fireChannel_text {a : Nat} (h : servedBy s n = some lang) (hc : s.table.cues[i]? = some c)
    (hs : c.slots[lang]? = some (.text a)) :
    fireChannel i resync n s =
      itemArrives n (itemFor s i lang (.text a) resync)
        (if (itemFor s i lang (.text a) resync).awaiting then awaitText ⟨i, lang⟩ n s else s) := by
  simp only [fireChannel, h, hc, Option.bind_some, hs]

theorem itemFor_ready {a : Nat} {x : TitleText} (h : s.staging.find ⟨i, lang⟩ = some (.ready x)) :
    itemFor s i lang (.text a) resync = madeItem s i resync lang .title (some x) := by
  unfold itemFor
  simp only [h, madeItem]

theorem itemFor_failed {a : Nat} (h : s.staging.find ⟨i, lang⟩ = some .failed) :
    itemFor s i lang (.text a) resync = madeItem s i resync lang .blank none := by
  unfold itemFor
  simp only [h, madeItem]

theorem itemFor_missing {a : Nat} (h : s.staging.find ⟨i, lang⟩ = none) :
    itemFor s i lang (.text a) resync = madeItem s i resync lang .title none := by
  unfold itemFor
  simp only [h, madeItem]

end create

/-! ### An item joins its channel (R79, R80) -/

section join
variable {n : Fin 8} {i : Item} {s : State}

/-- The channel's queue with an item behind it. -/
def joined (n : Fin 8) (i : Item) (s : State) : State :=
  s.withChannel n { s.channels[n] with queue := s.channels[n].queue ++ [i] }

/-- What a join sets off, by the state of the title layer (R79, R80). -/
def afterJoin (n : Fin 8) (s : State) : State :=
  match s.channels[n].layer with
  | .showing => catchUpJoin n s
  | .blank | .settled => release n s
  | .gap | .off => s

theorem withChannel_withChannel (n : Fin 8) (x y : Channel) (s : State) :
    (s.withChannel n x).withChannel n y = s.withChannel n y := by
  simp [State.withChannel]

theorem itemArrives_off (h : s.channels[n].layer = .off) : (itemArrives n i s).channels = s.channels := by
  obtain ⟨awaited, hw⟩ := withdrawLost_eq n [i] s
  rw [itemArrives, if_pos h, hw]
  rfl

/-- An item without the resync flag joins, in place of the oldest at a full queue, which is withdrawn for (R47, R79). -/
theorem itemJoins_eq (n : Fin 8) (i : Item) (s : State) :
    itemJoins n i s = afterJoin n (withdrawLost n
      (if Config.pendingPlaces ≤ s.channels[n].queue.length then s.channels[n].queue.take 1 else [])
      (joined n i (if Config.pendingPlaces ≤ s.channels[n].queue.length then dropOldest n s else s))) := rfl

/-- An item without the resync flag joins a queue that has a place. -/
theorem itemArrives_joins (hr : i.resync = false) (hl : s.channels[n].layer ≠ .off)
    (hq : s.channels[n].queue.length < 3) : itemArrives n i s = afterJoin n (joined n i s) := by
  have place : ¬ Config.pendingPlaces ≤ s.channels[n].queue.length := Nat.not_le.2 hq
  rw [itemArrives, if_neg hl, if_neg (by rw [hr]; decide), itemJoins_eq, if_neg place, if_neg place]
  rfl

theorem joined_channel : (joined n i s).channels[n] = { s.channels[n] with queue := s.channels[n].queue ++ [i] } :=
  withChannel_self _ _ _

/-- A shortened minimum, rounded up (R78, R80). -/
theorem caughtUp_eq (l : LanguageConfig) (minimum : Nat) : caughtUp l minimum = (minimum * l.catchUp + 99) / 100 := rfl

/-- The reading deadline after a join in SHOWING: brought forward to the shortened minimum (R80). -/
def broughtForward (l : LanguageConfig) (sh : Shown) (d : Time) : Time :=
  earlier d (later sh.at_ (1000 * caughtUp l sh.minimum))

theorem afterJoin_gap (h : s.channels[n].layer = .gap) : afterJoin n (joined n i s) = joined n i s := by
  simp only [afterJoin, joined_channel, h]

theorem afterJoin_releases (h : s.channels[n].layer = .blank ∨ s.channels[n].layer = .settled) :
    afterJoin n (joined n i s) = release n (joined n i s) := by
  rcases h with h | h
  · simp only [afterJoin, joined_channel, h]
  · simp only [afterJoin, joined_channel, h]

theorem afterJoin_showing {sh : Shown} {d : Time} (h : s.channels[n].layer = .showing)
    (hs : s.channels[n].shown = some sh) (hd : s.channels[n].reading = some d) :
    afterJoin n (joined n i s) =
      if due (broughtForward (s.languageOf n) sh d) s.clock then
        release n (s.withChannel n { s.channels[n] with
          queue := s.channels[n].queue ++ [i], layer := .settled, reading := none })
      else s.withChannel n { s.channels[n] with
        queue := s.channels[n].queue ++ [i], reading := some (broughtForward (s.languageOf n) sh d) } := by
  simp only [afterJoin, joined_channel, h, catchUpJoin, hs, hd]
  simp only [joined, withChannel_withChannel]
  rfl

section full
variable {x : Item} {rest : List Item} (hx : s.channels[n].queue = x :: rest)
include hx

theorem dropOldest_of_queued :
    dropOldest n s =
      notify (.titleSkipped n x.cue x.label x.kind (millis x.fired) x.awaiting)
        (count .skippedTitles (s.withChannel n { s.channels[n] with queue := rest })) := by
  simp only [dropOldest, hx]

theorem dropOldest_channels :
    (dropOldest n s).channels = s.channels.set n { s.channels[n] with queue := rest } := by
  rw [dropOldest_of_queued hx, (notify_only _ _).channels, (count_only _ _).channels]
  rfl

theorem dropOldest_counters :
    (dropOldest n s).counters =
      s.counters.set CounterName.skippedTitles.index (bumped s.counters[CounterName.skippedTitles.index]) := by
  rw [dropOldest_of_queued hx, (notify_only _ _).counters, count_counters]
  rfl

/-- Given room, the dropped item is told (R79). -/
theorem dropOldest_admits (room : roomFor s .titleSkipped) :
    Admitted s (dropOldest n s) (.titleSkipped n x.cue x.label x.kind (millis x.fired) x.awaiting) := by
  have emptier : sameNotices s (s.withChannel n { s.channels[n] with queue := rest }) := ⟨rfl, rfl⟩
  have silent := emptier.trans (count_notices .skippedTitles _)
  have only := (CaptionsOnly.channel s n { s.channels[n] with queue := rest }).trans
    (count_only .skippedTitles _).toCaptionsOnly
  have place : roomFor (count .skippedTitles (s.withChannel n { s.channels[n] with queue := rest }))
      (Notice.titleSkipped n x.cue x.label x.kind (millis x.fired) x.awaiting).kind :=
    only.toFiresOnly.keepsRoom silent room
  rw [dropOldest_of_queued hx]
  exact (notify_admitted _ _ place).since silent

/-- In GAP an item that finds three queued takes the place of the oldest (R79), which is withdrawn for (R47). -/
theorem itemArrives_drops (hr : i.resync = false) (hl : s.channels[n].layer = .gap)
    (hq : 3 ≤ s.channels[n].queue.length) :
    itemArrives n i s = withdrawLost n [x] (joined n i (dropOldest n s)) := by
  have full : Config.pendingPlaces ≤ s.channels[n].queue.length := hq
  have enabled : s.channels[n].layer ≠ .off := by rw [hl]; decide
  have gap : (withdrawLost n [x] (joined n i (dropOldest n s))).channels[n].layer = .gap := by
    obtain ⟨awaited, hw⟩ := withdrawLost_eq n [x] (joined n i (dropOldest n s))
    have kept : (dropOldest n s).channels[n] = { s.channels[n] with queue := rest } := by
      rw [dropOldest_channels hx]
      exact Vector.getElem_set_self _
    have same : (withdrawLost n [x] (joined n i (dropOldest n s))).channels[n] = (joined n i (dropOldest n s)).channels[n] := by
      rw [hw]
      rfl
    rw [same, joined_channel, kept]
    exact hl
  have joins : itemArrives n i s = afterJoin n (withdrawLost n [x] (joined n i (dropOldest n s))) := by
    rw [itemArrives, if_neg enabled, if_neg (by rw [hr]; decide), itemJoins_eq, if_pos full, if_pos full, hx]
    rfl
  rw [joins]
  simp only [afterJoin, gap]

end full

end join

/-! ### An item resyncs its channel (R81) -/

section resync
variable {n : Fin 8} {i : Item} {s : State}

/-- The channel cleared of what it held behind and after its current title (R81). -/
def Channel.cleared (c : Channel) : Channel := { c with queue := [], next := none, gap := none }

theorem itemArrives_resyncs (hr : i.resync = true) (hl : s.channels[n].layer ≠ .off) :
    itemArrives n i s = itemResyncs n i s := by
  rw [itemArrives, if_neg hl, if_pos hr]

/-- A channel replaced before lost items are withdrawn for stands in a state with the same clock and configuration. -/
theorem withdrawLost_replaced (lost : List Item) (c : Channel) :
    ∃ awaited, withdrawLost n lost (s.withChannel n c) =
      (s.withStaging { s.staging with awaited := awaited }).withChannel n c := by
  obtain ⟨awaited, h⟩ := withdrawLost_eq n lost (s.withChannel n c)
  exact ⟨awaited, h⟩

/-- A resync title with its text is shown in the cleared channel (R81, R83). -/
theorem itemResyncs_title (hk : i.kind = .title) (ha : i.awaiting = false) :
    ∃ content number slipMax, (itemResyncs n i s).channels[n] =
      { s.channels[n].cleared.shows (s.languageOf n) i s.clock with
        content := content, number := number, slipMax := slipMax } := by
  obtain ⟨awaited, hw⟩ := withdrawLost_replaced (n := n) (s := s)
    (s.channels[n].queue ++ s.channels[n].next.toList) s.channels[n].cleared
  have shown : itemResyncs n i s = showTitle n i
      ((s.withStaging { s.staging with awaited := awaited }).withChannel n s.channels[n].cleared) := by
    rw [← hw]
    simp only [itemResyncs, ha, hk, Bool.false_eq_true, if_false]
    rfl
  obtain ⟨content, number, slipMax, h⟩ := takeEffect_recompose_channel n .title i
    (s.channels[n].cleared.shows (s.languageOf n) i s.clock)
    ((s.withStaging { s.staging with awaited := awaited }).withChannel n s.channels[n].cleared)
  refine ⟨content, number, slipMax, ?_⟩
  rw [shown, showTitle, withChannel_self]
  exact h

/-- A resync BLANK item leaves the cleared channel BLANK (R81). -/
theorem itemResyncs_blank (hk : i.kind = .blank) :
    ∃ content number slipMax, (itemResyncs n i s).channels[n] =
      { s.channels[n].cleared.clears .blank with content := content, number := number, slipMax := slipMax } := by
  have ha : i.awaiting = false := by simp [Item.awaiting, hk]
  obtain ⟨awaited, hw⟩ := withdrawLost_replaced (n := n) (s := s)
    (s.channels[n].queue ++ s.channels[n].next.toList) s.channels[n].cleared
  have taken : itemResyncs n i s = takeBlank n i
      ((s.withStaging { s.staging with awaited := awaited }).withChannel n s.channels[n].cleared) := by
    rw [← hw]
    simp only [itemResyncs, ha, hk, Bool.false_eq_true, if_false]
    rfl
  obtain ⟨content, number, slipMax, h⟩ := takeEffect_recompose_channel n .nothing i
    (s.channels[n].cleared.clears .blank)
    ((s.withStaging { s.staging with awaited := awaited }).withChannel n s.channels[n].cleared)
  refine ⟨content, number, slipMax, ?_⟩
  rw [taken, takeBlank, withChannel_self]
  exact h

/-- In BLANK a head with the resync flag that awaits its text is marked late and waits (R82, R88). -/
theorem release_waits {rest : List Item} (hl : s.channels[n].layer = .blank) (hq : s.channels[n].queue = i :: rest)
    (hr : i.resync = true) (ha : i.awaiting = true) :
    release n s = s.withChannel n { s.channels[n] with queue := { i with late := true } :: rest } := by
  rw [release, if_pos (.inl hl), releaseLoop]
  simp only [hq, hr, ha, not_true, false_and, and_false, if_false, if_true]

/-- A resync title without its text waits alone in the cleared channel, BLANK and marked late (R81, R82, R88). -/
theorem itemResyncs_awaiting (hr : i.resync = true) (ha : i.awaiting = true) :
    ∃ content number, (itemResyncs n i s).channels[n] =
      { s.channels[n].cleared.clears .blank with
        queue := [{ i with late := true }], content := content, number := number } := by
  obtain ⟨awaited, hw⟩ := withdrawLost_replaced (n := n) (s := s)
    (s.channels[n].queue ++ s.channels[n].next.toList) { s.channels[n].cleared.clears .blank with queue := [i] }
  have released : itemResyncs n i s = release n (recompose n .nothing
      ((s.withStaging { s.staging with awaited := awaited }).withChannel n
        { s.channels[n].cleared.clears .blank with queue := [i] })) := by
    rw [← hw]
    simp only [itemResyncs, ha, if_true]
    rfl
  obtain ⟨content, number, hc⟩ := recompose_channels n .nothing
    ((s.withStaging { s.staging with awaited := awaited }).withChannel n
      { s.channels[n].cleared.clears .blank with queue := [i] })
  rw [withChannel_self] at hc
  generalize recompose n .nothing _ = u at hc released
  have composed : u.channels[n] =
      { s.channels[n].cleared.clears .blank with queue := [i], content := content, number := number } := by
    rw [hc]
    exact Vector.getElem_set_self _
  refine ⟨content, number, ?_⟩
  rw [released, release_waits (i := i) (rest := []) (by rw [composed]; rfl) (by rw [composed]) hr ha, withChannel_self,
    composed]

/-- A resync item leaves its channel with no next title and no gap (R81). -/
theorem itemResyncs_ends (hr : i.resync = true) :
    (itemResyncs n i s).channels[n].next = none ∧ (itemResyncs n i s).channels[n].gap = none := by
  cases ha : i.awaiting with
  | true =>
    obtain ⟨content, number, h⟩ := itemResyncs_awaiting (n := n) (s := s) hr ha
    rw [h]
    exact ⟨rfl, rfl⟩
  | false =>
    cases hk : i.kind with
    | title =>
      obtain ⟨content, number, slipMax, h⟩ := itemResyncs_title (n := n) (s := s) hk ha
      rw [h]
      exact ⟨rfl, rfl⟩
    | blank =>
      obtain ⟨content, number, slipMax, h⟩ := itemResyncs_blank (n := n) (s := s) hk
      rw [h]
      exact ⟨rfl, rfl⟩

end resync

end Sys2Proof.Machine

namespace Sys2Proof.Proofs

open Sys2Proof.Machine

/-- Settles O19: the deadlines by `fireRun_fires` and `fire_fires`; the run, the items and their arrival each by the
lemma of its case. -/
theorem passedDeadlinesFire : Obligations.PassedDeadlinesFire := by
  refine ⟨fun m d s₀ s hs hrun hd hdue => ?_, fun m d kept s₀ s hs hrun hd hdue => ?_,
    fun m w s₀ s hs hrun hw hdue hahead => ?_, fun s start => ?_, fun i resync n s => ?_, fun n i s => ?_⟩
  · have fired : markExpired s = arm (fireRun s.firing.pointer .mark s) := by
      simp only [markExpired, hd, hdue, hrun, and_self, if_true]
    refine ⟨_, during_awake markExpired hs, ?_⟩
    rw [fired]
    exact fireRun_fires hrun (Nat.le_refl _) (by decide)
  · have fired : followExpired s = fire s.firing.pointer .follow s := by
      simp only [followExpired, hd, hdue, hrun, and_self, if_true]
    refine ⟨_, during_awake followExpired hs, ?_⟩
    rw [fired]
    have fires : Fires s.firing.pointer .follow s (offerHalves (fire s.firing.pointer .follow s)) := fire_fires hrun
    exact ⟨⟨fires.1, fires.2.1⟩, fires⟩
  · have fired : watchExpired s = arm (fireRun w.cue .overrun s) := by
      simp only [watchExpired, hw, hdue, hrun, and_self, if_true]
    refine ⟨_, during_awake watchExpired hs, ?_⟩
    rw [fired]
    exact fireRun_fires hrun hahead.le (by decide)
  · exact ⟨stackedRun_ge, fun j hlow hhigh => stackedRun_due hlow hhigh,
      fun c hc hmark => stackedRun_ends (Nat.le_add_left _ _) hc hmark⟩
  · refine ⟨fireChannel_unserved, fun lang c hserved hc => ⟨fireChannel_absent hserved hc, fireChannel_blank hserved hc,
      fun a ha => ⟨fun x hx => ?_, fun hfailed => ?_, fun hmissing => ?_⟩⟩⟩
    · rw [fireChannel_text hserved hc ha, itemFor_ready hx]
      rfl
    · rw [fireChannel_text hserved hc ha, itemFor_failed hfailed]
      rfl
    · rw [fireChannel_text hserved hc ha, itemFor_missing hmissing]
      rfl
  · intro c l u
    refine ⟨itemArrives_off, fun hr hq => ⟨fun hl => ?_, fun hl => ?_, fun sh d hl hsh hd => ?_⟩,
      fun x rest hr hl hx hq => ?_, fun hr hl => ?_⟩
    · exact (itemArrives_joins hr (by rw [hl]; decide) hq).trans (afterJoin_gap hl)
    · refine (itemArrives_joins hr ?_ hq).trans (afterJoin_releases hl)
      rcases hl with hl | hl
      · rw [hl]; decide
      · rw [hl]; decide
    · have joins : u = _ := (itemArrives_joins hr (by rw [hl]; decide) hq).trans (afterJoin_showing hl hsh hd)
      intro sooner
      refine ⟨fun ahead => ?_, fun passed => ?_⟩
      · exact joins.trans (if_neg (by rw [show due (broughtForward l sh d) s.clock = false from ahead]; decide))
      · exact joins.trans (if_pos passed)
    · have drops : u = _ := itemArrives_drops hx hr hl hq
      obtain ⟨awaited, hw⟩ := withdrawLost_eq n [x] (joined n i (dropOldest n s))
      rw [drops, hw]
      refine ⟨?_, dropOldest_counters hx, dropOldest_admits hx⟩
      change (dropOldest n s).channels.set n { (dropOldest n s).channels[n] with
        queue := (dropOldest n s).channels[n].queue ++ [i] } = _
      simp [dropOldest_channels hx, c]
    · have resyncs : u = itemResyncs n i s := itemArrives_resyncs hr hl
      have waiting : i.kind = .title → i.text = none → i.awaiting = true := fun hk ht => by simp [Item.awaiting, hk, ht]
      have staged : ∀ {x}, i.text = some x → i.awaiting = false := fun ht => by simp [Item.awaiting, ht]
      rw [resyncs]
      obtain ⟨hnext, hgap⟩ := itemResyncs_ends (n := n) (s := s) hr
      refine ⟨hnext, hgap, fun hk x ht => ?_, fun hk => ?_, fun hk ht => ?_⟩
      · obtain ⟨content, number, slipMax, h⟩ := itemResyncs_title (n := n) (s := s) hk (staged ht)
        rw [h]
        simp only [Channel.shows, ht, Option.map_some, Option.getD_some]
        exact ⟨trivial, trivial, rfl, rfl, rfl⟩
      · obtain ⟨content, number, slipMax, h⟩ := itemResyncs_blank (n := n) (s := s) hk
        rw [h]
        exact ⟨rfl, rfl, rfl, rfl⟩
      · obtain ⟨content, number, h⟩ := itemResyncs_awaiting (n := n) (s := s) hr (waiting hk ht)
        rw [h]
        exact ⟨rfl, rfl, rfl⟩

end Sys2Proof.Proofs
end

section
/-! Configuration values (R166, R167): what an item holds after it or another was given a value, and after a list. -/

namespace Sys2Proof.Machine

/-! ### One item given a value -/

/-- A value in an item's range is at most the range's end. -/
theorem inRange_le {item : ConfigItem} {v : Nat} (h : item.inRange v = true) : v ≤ item.range.2 := by
  simp only [ConfigItem.inRange, Bool.and_eq_true, decide_eq_true_eq] at h
  exact h.1.2

/-- A yes-or-no item holds the 0 or 1 it was given. -/
theorem flagValue {v : Nat} (h : v ≤ 1) : (decide (v ≠ 0)).toNat = v := by
  rcases Nat.le_one_iff_eq_zero_or_eq_one.1 h with rfl | rfl <;> rfl

/-- An item given a value of its range holds that value. -/
theorem value_give_same {c : Configuration} {item : ConfigItem} {v : Nat} (h : item.inRange v = true) :
    (c.give item v).value item = v := by
  have bound := inRange_le h
  cases item with
  | channel n item =>
    simp only [Configuration.give, Configuration.value, Fin.getElem_fin, Vector.getElem_set_self]
    cases item with
    | enabled => exact flagValue bound
    | address => exact Nat.mod_eq_of_lt (Nat.lt_of_le_of_lt bound (show 223 < 2 ^ 8 by decide))
    | language => exact Nat.mod_eq_of_lt (Nat.lt_succ_of_le bound)
    | lines => rfl
    | muted => exact flagValue bound
  | language l item =>
    simp only [Configuration.give, Configuration.value, Fin.getElem_fin, Vector.getElem_set_self]
    cases item with
    | code =>
      by_cases hv : v = 0
      · simp only [LanguageConfig.give, LanguageConfig.value, hv, if_true]
        rfl
      · simp only [LanguageConfig.give, LanguageConfig.value, hv, if_false]
        exact Nat.mod_eq_of_lt (Nat.lt_succ_of_le bound)
    | base | perChar | cap | gap | catchUp => rfl
  | engine item =>
    cases item with
    | onSilence | onGap | onReverse | onRate | watchOn | goReleases => exact flagValue bound
    | notice kind =>
      simp only [Configuration.give, Configuration.value, EngineConfig.give, EngineConfig.value, Fin.getElem_fin,
        Vector.getElem_set_self]
      exact flagValue bound
    | slip | smoothing | horizon | silenceLimit | gapLimit | rateWindow | watchWindow | censusWindow => rfl

theorem channelValue_other {k : ChannelConfig} {a b : ChannelItem} (h : a ≠ b) (v : Nat) :
    (k.give a v).value b = k.value b := by
  cases b <;> cases a <;> simp [ChannelConfig.give, ChannelConfig.value] at h ⊢

theorem languageValue_other {k : LanguageConfig} {a b : LanguageItem} (h : a ≠ b) (v : Nat) :
    (k.give a v).value b = k.value b := by
  cases b <;> cases a <;> simp [LanguageConfig.give, LanguageConfig.value] at h ⊢

theorem engineValue_other {k : EngineConfig} {a b : EngineItem} (h : a ≠ b) (v : Nat) :
    (k.give a v).value b = k.value b := by
  cases b <;> cases a <;> simp [EngineConfig.give, EngineConfig.value, Fin.ext_iff] at h ⊢
  case notice.notice i j => rw [Vector.getElem_set_ne _ _ h]

/-- Every other item holds what it held. -/
theorem value_give_other {c : Configuration} {a b : ConfigItem} (h : a ≠ b) (v : Nat) :
    (c.give a v).value b = c.value b := by
  cases a with
  | channel n x =>
    cases b with
    | channel m y =>
      by_cases same : n = m
      · subst same
        simp only [Configuration.give, Configuration.value, Fin.getElem_fin, Vector.getElem_set_self]
        exact channelValue_other (fun e => h (by rw [e])) v
      · have apart : n.val ≠ m.val := fun e => same (Fin.ext e)
        simp [Configuration.give, Configuration.value, apart]
    | language | engine => rfl
  | language n x =>
    cases b with
    | language m y =>
      by_cases same : n = m
      · subst same
        simp only [Configuration.give, Configuration.value, Fin.getElem_fin, Vector.getElem_set_self]
        exact languageValue_other (fun e => h (by rw [e])) v
      · have apart : n.val ≠ m.val := fun e => same (Fin.ext e)
        simp [Configuration.give, Configuration.value, apart]
    | channel | engine => rfl
  | engine x =>
    cases b with
    | engine y => exact engineValue_other (fun e => h (by rw [e])) v
    | channel | language => rfl

/-! ### A list of values (R167) -/

/-- Whether a pair names an item. -/
def namesItem (item : ConfigItem) (p : ConfigPair) : Bool := decide (itemOf p.item = some item)

theorem applyPair_value {c : Configuration} {p : ConfigPair} (hp : pairInRange p = true) (item : ConfigItem) :
    (applyPair c p).value item = if namesItem item p then ofBe p.value else c.value item := by
  obtain ⟨named, hnamed, inside⟩ := (Option.any_eq_true _ _).1 hp
  have applied : applyPair c p = c.give named (ofBe p.value) := by
    rw [applyPair, hnamed]
  rw [applied]
  by_cases same : named = item
  · subst same
    rw [value_give_same inside, if_pos (show namesItem named p = true from decide_eq_true hnamed)]
  · have other : ¬ namesItem item p = true := fun h =>
      same (Option.some.inj (hnamed.symm.trans (of_decide_eq_true h)))
    rw [value_give_other same, if_neg other]

/-- After a list an item holds the last value the list gives it, and else what it held. -/
theorem applyPairs_value {c : Configuration} {pairs : List ConfigPair} (hp : ∀ p ∈ pairs, pairInRange p = true)
    (item : ConfigItem) :
    (applyPairs c pairs).value item =
      ((pairs.reverse.find? (namesItem item)).map (fun p => ofBe p.value)).getD (c.value item) := by
  induction pairs generalizing c with
  | nil => rfl
  | cons p rest ih =>
    have first := applyPair_value (c := c) (hp p List.mem_cons_self) item
    have later := ih (c := applyPair c p) fun q hq => hp q (List.mem_cons_of_mem _ hq)
    change (applyPairs (applyPair c p) rest).value item = _
    rw [later, first, List.reverse_cons, List.find?_append]
    cases rest.reverse.find? (namesItem item) with
    | some q => rfl
    | none =>
      simp only [Option.map_none, Option.getD_none, Option.none_or, List.find?_cons, List.find?_nil]
      cases namesItem item p <;> rfl

end Sys2Proof.Machine
end

section
/-! What a new configuration makes of each channel (R73, R74, R93, R110, R180): the reaction of the channel itself, and
what the reactions of the others leave of it. -/

namespace Sys2Proof.Machine

/-! ### The width of reactions -/

/-- At most what reactions to a new configuration may change: a fire's width, from a state with the overlay's placements
and the tools replaced. -/
def ReactsOnly (s t : State) : Prop :=
  ∃ placements tools, FiresOnly ((s.withPlacements placements).withTools tools) t

/-- Placements and tools replaced on both sides of a width. -/
theorem FiresOnly.replaced {s t : State} (h : FiresOnly s t) (placements : List Placement) (tools : Tools) :
    FiresOnly ((s.withPlacements placements).withTools tools) ((t.withPlacements placements).withTools tools) :=
  ⟨h.outside, h.score, rfl, h.control, h.store, h.requests, fun _ => rfl, h.grows⟩

theorem FiresOnly.reacts {s t : State} (h : FiresOnly s t) : ReactsOnly s t := ⟨s.placements, s.tools, h⟩

theorem ReactsOnly.refl (s : State) : ReactsOnly s s := (FiresOnly.refl s).reacts

theorem ReactsOnly.trans {s t u : State} (h : ReactsOnly s t) (k : ReactsOnly t u) : ReactsOnly s u := by
  obtain ⟨_, _, h⟩ := h
  obtain ⟨placements, tools, k⟩ := k
  exact ⟨placements, tools, FiresOnly.trans (h.replaced placements tools) k⟩

theorem ReactsOnly.placements (s : State) (x : List Placement) : ReactsOnly s (s.withPlacements x) :=
  ⟨x, s.tools, .refl _⟩

theorem ReactsOnly.config {s t : State} (h : ReactsOnly s t) : t.config = s.config := by
  obtain ⟨_, _, h⟩ := h
  obtain ⟨-, -, -, hconfig, -, -⟩ := h.outside
  exact hconfig

/-! ### What stays of a channel while others react -/

/-- What of channel n stays while other channels react: the channel itself, its captions withheld or not, its caption
slot on a transmitting port D, its empty level-3 slot, and no tool running. -/
structure Apart (n : Fin 8) (s t : State) : Prop where
  config : t.config = s.config
  channel : t.channels[n] = s.channels[n]
  withheld : withheld t n = withheld s n
  slot : s.link.sendingD.isSome = true → t.link.sendingD.isSome = true ∧ t.link.slots[n] = s.link.slots[n]
  message : messageAt s n .alert = none → messageAt t n .alert = none
  idle : s.tools.running = .none → t.tools.running = .none

section order
variable {n : Fin 8} {s t u : State}

theorem Apart.refl (n : Fin 8) (s : State) : Apart n s s := ⟨rfl, rfl, rfl, fun busy => ⟨busy, rfl⟩, id, id⟩

theorem Apart.trans (h : Apart n s t) (k : Apart n t u) : Apart n s u :=
  ⟨k.config.trans h.config, k.channel.trans h.channel, k.withheld.trans h.withheld,
    fun busy => ⟨(k.slot (h.slot busy).1).1, (k.slot (h.slot busy).1).2.trans (h.slot busy).2⟩,
    fun empty => k.message (h.message empty), fun idle => k.idle (h.idle idle)⟩

/-- Captions withheld go with the tool running. -/
theorem withheld_congr (h : t.tools = s.tools) : Machine.withheld t n = Machine.withheld s n := by
  unfold Machine.withheld
  rw [h]

theorem messageAt_congr {level : Level} (h : t.placements = s.placements) : messageAt t n level = messageAt s n level := by
  unfold messageAt
  rw [h]

/-- Counting and notices leave every channel apart. -/
theorem NoticesOnly.apart (h : NoticesOnly s t) (n : Fin 8) : Apart n s t := by
  obtain ⟨-, -, -, hconfig, -, -⟩ := h.outside
  obtain ⟨-, hslots, -, -, -, -, -, -, hsending⟩ := h.portD
  refine ⟨hconfig, by rw [h.channels], withheld_congr h.tool, fun busy => ⟨by rw [hsending]; exact busy, by rw [hslots]⟩,
    fun empty => (messageAt_congr h.placements).trans empty, fun idle => by rw [h.tool]; exact idle⟩

/-- Another channel replaced. -/
theorem Apart.channelSet {k : Fin 8} (h : n ≠ k) (s : State) (x : Channel) : Apart n s (s.withChannel k x) :=
  ⟨rfl, withChannel_other s k n x h, rfl, fun busy => ⟨busy, rfl⟩, id, id⟩

end order

/-! ### Captions of another channel (R91, R154) -/

theorem countSent_withheld (t : ToolFrame) (n : Fin 8) (s : State) : withheld (countSent t s) n = withheld s n := by
  unfold countSent
  split
  · next r hr =>
    unfold withheld
    rw [hr]
    rfl
  · rfl

theorem serveD_withheld {source : SourceD} {s t : State} (h : serveD source s = some t) (n : Fin 8) :
    withheld t n = withheld s n := by
  unfold serveD at h
  split at h
  · obtain ⟨p, -, rfl⟩ := Option.map_eq_some_iff.1 h
    rfl
  · obtain ⟨frame, -, rfl⟩ := Option.map_eq_some_iff.1 h
    exact countSent_withheld frame n _
  · split at h
    · cases h
    · obtain rfl := Option.some.inj h
      rfl

/-- Port D's choice counts a frame of the running test as sent, and no test ends or begins. -/
theorem chooseD_withheld (n : Fin 8) (s : State) : withheld (chooseD s) n = withheld s n := by
  unfold chooseD
  split
  · rfl
  · cases h : (circularFrom s.link.dNext).findSome? (fun source => serveD source s) with
    | none => rfl
    | some t =>
      obtain ⟨source, -, served⟩ := List.exists_of_findSome?_eq_some h
      exact serveD_withheld served n

/-- A caption put on a transmitting port D waits in its slot (R154). -/
theorem putCaption_transmitting {c : Caption} {s : State} (busy : s.link.sendingD.isSome = true) :
    (putCaption c s).link.sendingD = s.link.sendingD := by
  unfold putCaption
  rw [chooseD_busy _ (by simpa using busy)]
  rfl

section caption
variable {k n : Fin 8} {s : State}

theorem writeCaption_transmitting (busy : s.link.sendingD.isSome = true) :
    (writeCaption k s).link.sendingD = s.link.sendingD :=
  putCaption_transmitting (s := s.withChannel k { s.channels[k] with number := s.channels[k].number + 1 }) busy

theorem writeCaption_withheld (k n : Fin 8) (s : State) : withheld (writeCaption k s) n = withheld s n :=
  chooseD_withheld n _

/-- A channel that writes a caption leaves every other apart. -/
theorem writeCaption_apart (h : n ≠ k) (s : State) : Apart n s (writeCaption k s) := by
  have only := writeCaption_only k s
  obtain ⟨-, -, -, hconfig, -, -⟩ := only.outside
  refine ⟨hconfig, ?_, writeCaption_withheld k n s, fun busy => ⟨?_, ?_⟩,
    fun empty => (messageAt_congr only.placements).trans empty, fun idle => ?_⟩
  · unfold writeCaption
    rw [(putCaption_only _ _).channels]
    exact withChannel_other s k n _ h
  · rw [writeCaption_transmitting busy]
    exact busy
  · have apart : k.val ≠ n.val := fun e => h (Fin.ext e.symm)
    rw [(writeCaption_busy busy _ _ rfl rfl).1]
    simp [apart]
  · rw [only.tools fun r hr => by simp [idle] at hr]
    exact idle

/-- The channel that writes a caption moves its number alone. -/
theorem writeCaption_channel (n : Fin 8) (s : State) :
    (writeCaption n s).channels[n] = { s.channels[n] with number := s.channels[n].number + 1 } := by
  unfold writeCaption
  rw [(putCaption_only _ _).channels]
  exact withChannel_self s n _

end caption

/-! ### A channel disabled (R73, R110, R180) -/

/-- No message stands on a channel at a level when none of that level's placements holds it. -/
theorem messageAt_none {s : State} {n : Fin 8} {level : Level} :
    messageAt s n level = none ↔ ∀ p ∈ s.placements, p.level = level → setHas p.channels n = false := by
  simp [messageAt]

theorem setHas_setWith (k n : Fin 8) : setHas (setWith 0 k) n = decide (n = k) := by
  revert k n
  decide

theorem setHas_without (set other : ChannelSet) (n : Fin 8) :
    setHas (set &&& ~~~other) n = (setHas set n && !setHas other n) := by
  unfold setHas
  simp [n.isLt]

/-- Channels that leave the placements of a level stand on none of its placements, and no other channel comes to one. -/
theorem leavePlacements_left {level : Level} {set : ChannelSet} {ps : List Placement} {n : Fin 8}
    (h : setHas set n = true ∨ ∀ p ∈ ps, p.level = level → setHas p.channels n = false) :
    ∀ p ∈ leavePlacements level set ps, p.level = level → setHas p.channels n = false := by
  intro p hp hlevel
  unfold leavePlacements at hp
  obtain ⟨q, hq, rfl⟩ := List.mem_map.1 (List.mem_filter.1 hp).1
  by_cases same : q.level = level
  · rw [if_pos same, setHas_without]
    rcases h with left | bare
    · rw [left]
      exact Bool.and_false _
    · rw [bare q hq same]
      rfl
  · rw [if_neg same] at hlevel
    exact absurd hlevel same

/-- The channel emptied and off its level-3 placement (R73, R110). -/
def silenced (n : Fin 8) (s : State) : State :=
  (s.withChannel n s.channels[n].disabled).withPlacements (leavePlacements .alert (setWith 0 n) s.placements)

theorem silenced_apart {k n : Fin 8} (h : n ≠ k) (s : State) : Apart n s (silenced k s) := by
  refine ⟨rfl, withChannel_other s k n _ h, rfl, fun busy => ⟨busy, rfl⟩, fun empty => ?_, id⟩
  exact messageAt_none.2 (leavePlacements_left (.inr (messageAt_none.1 empty)))

theorem silenced_message (n : Fin 8) (s : State) : messageAt (silenced n s) n .alert = none :=
  messageAt_none.2 (leavePlacements_left (.inl (by rw [setHas_setWith]; exact decide_eq_true rfl)))

/-- The end of a test on a disabled channel writes no caption (R94, R180). -/
theorem endTest_disabled {r : TestRecord} {cause : DoneResult} {s : State}
    (h : s.config.channels[r.channel].enabled = false) :
    ∃ data, endTest r cause s =
      notify (.opDone .test r.tag cause data) (leaveTool (s.withTools { s.tools with running := .none })) := by
  refine ⟨_, if_pos ?_⟩
  have told := notify_only (.opDone .test r.tag cause
    (be 1 r.channel ++ be 4 r.sent ++ be 4 r.good ++ be 4 r.bad ++ be 4 r.missed ++ be 1 r.errors))
    (leaveTool (s.withTools { s.tools with running := .none }))
  obtain ⟨-, -, -, hconfig, -, -⟩ := told.outside
  have same : (leaveTool (s.withTools { s.tools with running := .none })).config = s.config := rfl
  rw [hconfig, same, h]
  exact Bool.or_true _

section disabled
variable {n : Fin 8} {s : State}

theorem withheld_iff : withheld s n = true ↔ ∃ r, s.tools.running = .test r ∧ r.channel = n := by
  unfold withheld
  split
  · next r running => simp [running]
  · next other =>
    refine ⟨fun h => absurd h (by decide), fun ⟨r, running, _⟩ => absurd running (other r)⟩

/-- Disabling a channel that no test runs on silences it. -/
theorem channelDisabled_untested (h : withheld s n = false) : channelDisabled n s = silenced n s := by
  unfold channelDisabled
  extract_lets s1 s2
  split
  · next r running =>
    refine if_neg fun same => ?_
    have tested : withheld s n = true := withheld_iff.2 ⟨r, running, same⟩
    rw [tested] at h
    cases h
  · rfl

/-- Disabling a channel that a test runs on ends the test too (R180). -/
theorem channelDisabled_tested (h : withheld s n = true) :
    ∃ r, r.channel = n ∧ s.tools.running = .test r ∧ channelDisabled n s = endTest r .disabled (silenced n s) := by
  obtain ⟨r, running, same⟩ := withheld_iff.1 h
  refine ⟨r, same, running, ?_⟩
  have tools : (silenced n s).tools.running = .test r := running
  unfold channelDisabled
  change (match (silenced n s).tools.running with
    | .test r => if r.channel = n then endTest r .disabled (silenced n s) else silenced n s
    | _ => silenced n s) = _
  rw [tools]
  exact if_pos same

/-- A test's end on a disabled channel leaves the other channels apart. -/
theorem endTest_apart {r : TestRecord} {cause : DoneResult} (running : s.tools.running = .test r) (h : n ≠ r.channel)
    (disabled : s.config.channels[r.channel].enabled = false) : Apart n s (endTest r cause s) := by
  obtain ⟨data, ended⟩ := endTest_disabled (cause := cause) disabled
  have untested : withheld s n = false := by
    unfold withheld
    rw [running]
    exact decide_eq_false h.symm
  have left : Apart n s (leaveTool (s.withTools { s.tools with running := .none })) :=
    ⟨rfl, rfl, untested.symm, fun busy => ⟨Option.isSome_map.trans busy, rfl⟩, id, fun _ => rfl⟩
  rw [ended]
  exact left.trans ((notify_only _ _).toNoticesOnly.apart n)

theorem channelDisabled_apart {k : Fin 8} (h : n ≠ k) (disabled : s.config.channels[k].enabled = false) :
    Apart n s (channelDisabled k s) := by
  cases tested : withheld s k with
  | false =>
    rw [channelDisabled_untested tested]
    exact silenced_apart h s
  | true =>
    obtain ⟨r, rfl, running, ended⟩ := channelDisabled_tested tested
    rw [ended]
    exact (silenced_apart h s).trans (endTest_apart running h disabled)

theorem silenced_channel (n : Fin 8) (s : State) : (silenced n s).channels[n] = s.channels[n].disabled :=
  withChannel_self s n _

/-- The disabled channel is emptied, has no level-3 message, and no test runs on it (R73, R110, R180). -/
theorem channelDisabled_self (disabled : s.config.channels[n].enabled = false) :
    (channelDisabled n s).channels[n] = s.channels[n].disabled ∧ messageAt (channelDisabled n s) n .alert = none ∧
      (withheld s n = true → (channelDisabled n s).tools.running = .none) := by
  cases tested : withheld s n with
  | false =>
    rw [channelDisabled_untested tested]
    exact ⟨silenced_channel n s, silenced_message n s, fun h => absurd h (by decide)⟩
  | true =>
    obtain ⟨r, rfl, -, ends⟩ := channelDisabled_tested tested
    obtain ⟨data, ended⟩ := endTest_disabled (s := silenced r.channel s) (cause := .disabled) disabled
    rw [ends, ended]
    have told := (notify_only (.opDone .test r.tag .disabled data)
      (leaveTool ((silenced r.channel s).withTools { (silenced r.channel s).tools with running := .none }))).toNoticesOnly
    have apart := told.apart r.channel
    exact ⟨apart.channel.trans (silenced_channel r.channel s), apart.message (silenced_message r.channel s),
      fun _ => apart.idle rfl⟩

theorem silenced_reactsOnly (n : Fin 8) (s : State) : ReactsOnly s (silenced n s) :=
  (CaptionsOnly.channel s n _).toFiresOnly.reacts.trans (.placements _ _)

theorem channelDisabled_reactsOnly (n : Fin 8) (s : State) : ReactsOnly s (channelDisabled n s) := by
  cases tested : withheld s n with
  | false =>
    rw [channelDisabled_untested tested]
    exact silenced_reactsOnly n s
  | true =>
    obtain ⟨r, -, -, ends⟩ := channelDisabled_tested tested
    rw [ends]
    exact (silenced_reactsOnly n s).trans ⟨_, _, (endTest_only r .disabled (silenced n s)).toFiresOnly⟩

end disabled

end Sys2Proof.Machine
end

section
/-! A channel's reaction to a new configuration (R73, R74, R93, R110, R180), in its three parts, and the reactions of all
eight in turn. -/

namespace Sys2Proof.Machine

/-! ### The three parts of a reaction -/

/-- The present flag after a change of address (R74). -/
def presentAfter (a b : ChannelConfig) (c : Channel) : Present := if a.address = b.address then c.present else .unknown

/-- The channel disabled, where its old and new items say so (R73, R110, R180). -/
def disabledBy (a b : ChannelConfig) (n : Fin 8) (s : State) : State :=
  if a.enabled && !b.enabled then channelDisabled n s else s

/-- The channel with the present flag that its old and new address leave it (R74). -/
def readdressed (a b : ChannelConfig) (n : Fin 8) (s : State) : State :=
  s.withChannel n { s.channels[n] with present := presentAfter a b s.channels[n] }

/-- Whether a change of items writes the stored content (R93, R94). -/
def unmutes (a b : ChannelConfig) (n : Fin 8) (s : State) : Bool := a.muted && !b.muted && b.enabled && !withheld s n

/-- The stored content written where the channel is unmuted (R93, R94). -/
def unmutedBy (a b : ChannelConfig) (n : Fin 8) (s : State) : State :=
  if unmutes a b n s then writeCaption n s else s

section parts
variable {a b : ChannelConfig} {k n : Fin 8} {s : State}

theorem withChannel_same (n : Fin 8) (s : State) : s.withChannel n s.channels[n] = s := by
  have same : s.channels.set n s.channels[n] = s.channels := Vector.set_getElem_self n.isLt
  unfold State.withChannel
  rw [same]

/-- A reaction is made of its three parts in turn. -/
theorem channelChanged_parts (old : Configuration) (n : Fin 8) (s : State) :
    channelChanged old n s = unmutedBy old.channels[n] s.config.channels[n] n
      (readdressed old.channels[n] s.config.channels[n] n
        (disabledBy old.channels[n] s.config.channels[n] n s)) := by
  have second (u : State) : readdressed old.channels[n] s.config.channels[n] n u =
      if old.channels[n].address ≠ s.config.channels[n].address then
        u.withChannel n { u.channels[n] with present := .unknown } else u := by
    by_cases same : old.channels[n].address = s.config.channels[n].address
    · simp only [readdressed, presentAfter, ne_eq, same, not_true_eq_false, if_false]
      exact withChannel_same n u
    · simp only [readdressed, presentAfter, ne_eq, same, not_false_eq_true, if_true, if_false]
  rw [second]
  rfl

theorem disabledBy_of_kept (h : a.enabled = false ∨ b.enabled = true) : disabledBy a b n s = s := by
  refine if_neg ?_
  rcases h with h | h <;> simp [h]

theorem unmutedBy_of_disabled (h : b.enabled = false) : unmutedBy a b n s = s := by
  refine if_neg ?_
  simp [unmutes, h]

/-! ### The width of a reaction -/

theorem disabledBy_reactsOnly (a b : ChannelConfig) (n : Fin 8) (s : State) : ReactsOnly s (disabledBy a b n s) := by
  unfold disabledBy
  split
  · exact channelDisabled_reactsOnly n s
  · exact .refl s

theorem unmutedBy_captionsOnly (a b : ChannelConfig) (n : Fin 8) (s : State) : CaptionsOnly s (unmutedBy a b n s) := by
  unfold unmutedBy
  split
  · exact writeCaption_only n s
  · exact .refl s

theorem readdressed_captionsOnly (a b : ChannelConfig) (n : Fin 8) (s : State) : CaptionsOnly s (readdressed a b n s) :=
  CaptionsOnly.channel s n _

theorem channelChanged_reactsOnly (old : Configuration) (n : Fin 8) (s : State) :
    ReactsOnly s (channelChanged old n s) := by
  rw [channelChanged_parts]
  exact (disabledBy_reactsOnly _ _ n s).trans
    ((readdressed_captionsOnly _ _ n _).trans (unmutedBy_captionsOnly _ _ n _)).toFiresOnly.reacts

/-! ### What a reaction leaves of the other channels -/

theorem disabledBy_apart (h : n ≠ k) (s : State) : Apart n s (disabledBy a s.config.channels[k] k s) := by
  cases enabled : s.config.channels[k].enabled with
  | true =>
    rw [disabledBy_of_kept (.inr enabled)]
    exact .refl n s
  | false =>
    unfold disabledBy
    split
    · exact channelDisabled_apart h enabled
    · exact .refl n s

theorem unmutedBy_apart (h : n ≠ k) (s : State) : Apart n s (unmutedBy a b k s) := by
  unfold unmutedBy
  split
  · exact writeCaption_apart h s
  · exact .refl n s

theorem channelChanged_apart (old : Configuration) (h : n ≠ k) (s : State) : Apart n s (channelChanged old k s) := by
  rw [channelChanged_parts]
  exact ((disabledBy_apart h s).trans (.channelSet h _ _)).trans (unmutedBy_apart h _)

end parts

/-! ### What a reaction makes of its own channel -/

/-- What channel n, with its items going from a to b, becomes by its own reaction. -/
structure Reacted (a b : ChannelConfig) (n : Fin 8) (s t : State) : Prop where
  present : t.channels[n].present = presentAfter a b s.channels[n]
  emptied : a.enabled = true → b.enabled = false →
    t.channels[n] = { s.channels[n].disabled with present := presentAfter a b s.channels[n] } ∧
      messageAt t n .alert = none ∧ (withheld s n = true → t.tools.running = .none)
  kept : a.enabled = false ∨ b.enabled = true →
    t.channels[n].layer = s.channels[n].layer ∧ t.channels[n].current = s.channels[n].current ∧
      t.channels[n].queue = s.channels[n].queue ∧ t.channels[n].content = s.channels[n].content
  written : unmutes a b n s = true → t.channels[n].number = s.channels[n].number + 1 ∧
    (s.link.sendingD.isSome = true → t.link.sendingD.isSome = true ∧
      t.link.slots[n] = some (captionOf b.address n (s.channels[n].number + 1) b.lines s.channels[n].content))
  silent : unmutes a b n s = false → t.channels[n].number = s.channels[n].number

section reaction
variable {a b : ChannelConfig} {n : Fin 8} {s t u v : State}

theorem unmutes_congr (h : withheld t n = withheld s n) : unmutes a b n t = unmutes a b n s := by
  unfold unmutes
  rw [h]

/-- A channel's own reaction stands whatever the others did before and after it. -/
theorem Reacted.among (h : Reacted a b n u v) (before : Apart n s u) (after : Apart n v t) : Reacted a b n s t where
  present := by
    rw [after.channel, h.present, before.channel]
  emptied ha hb := by
    obtain ⟨channel, message, idle⟩ := h.emptied ha hb
    rw [before.channel] at channel
    exact ⟨after.channel.trans channel, after.message message,
      fun tested => after.idle (idle (before.withheld.trans tested))⟩
  kept he := by
    rw [after.channel, ← before.channel]
    exact h.kept he
  written hw := by
    obtain ⟨number, slot⟩ := h.written ((unmutes_congr before.withheld).trans hw)
    rw [before.channel] at number slot
    refine ⟨by rw [after.channel]; exact number, fun busy => ?_⟩
    obtain ⟨busy, written⟩ := slot (before.slot busy).1
    exact ⟨(after.slot busy).1, (after.slot busy).2.trans written⟩
  silent hs := by
    rw [after.channel, ← before.channel]
    exact h.silent ((unmutes_congr before.withheld).trans hs)

theorem readdressed_channel (a b : ChannelConfig) (n : Fin 8) (s : State) :
    (readdressed a b n s).channels[n] = { s.channels[n] with present := presentAfter a b s.channels[n] } :=
  withChannel_self s n _

/-- The reaction of a channel that is disabled. -/
theorem reacted_disabling (items : s.config.channels[n] = b) (ha : a.enabled = true) (hb : b.enabled = false) :
    Reacted a b n s (readdressed a b n (channelDisabled n s)) := by
  obtain ⟨channel, message, idle⟩ := channelDisabled_self (n := n) (s := s) (by rw [items]; exact hb)
  have self := readdressed_channel a b n (channelDisabled n s)
  rw [channel] at self
  have present := congrArg Channel.present self
  have number := congrArg Channel.number self
  have muted : unmutes a b n s = false := by simp [unmutes, hb]
  exact {
    present := present
    emptied := fun _ _ => ⟨self, message, idle⟩
    kept := fun h => by simp [ha, hb] at h
    written := fun h => by simp [muted] at h
    silent := fun _ => number }

/-- The reaction of any other channel. -/
theorem reacted_kept (items : s.config.channels[n] = b) (h : a.enabled = false ∨ b.enabled = true) :
    Reacted a b n s (unmutedBy a b n (readdressed a b n s)) := by
  have self := readdressed_channel a b n s
  have untouched : unmutes a b n (readdressed a b n s) = unmutes a b n s := rfl
  have stays (ha : a.enabled = true) (hb : b.enabled = false) : False := by simp [ha, hb] at h
  cases writes : unmutes a b n s with
  | false =>
    rw [unmutedBy, if_neg (by rw [untouched, writes]; decide)]
    have present := congrArg Channel.present self
    have number := congrArg Channel.number self
    exact {
      present := present
      emptied := fun ha hb => (stays ha hb).elim
      kept := fun _ => by rw [self]; exact ⟨rfl, rfl, rfl, rfl⟩
      written := fun h => by rw [writes] at h; cases h
      silent := fun _ => number }
  | true =>
    rw [unmutedBy, if_pos (untouched.trans writes)]
    have channel := writeCaption_channel n (readdressed a b n s)
    rw [self] at channel
    have present := congrArg Channel.present channel
    have number := congrArg Channel.number channel
    refine {
      present := present
      emptied := fun ha hb => (stays ha hb).elim
      kept := fun _ => by rw [channel]; exact ⟨rfl, rfl, rfl, rfl⟩
      written := fun _ => ⟨number, fun busy => ⟨?_, ?_⟩⟩
      silent := fun h => by rw [writes] at h; cases h }
    · rw [writeCaption_transmitting (s := readdressed a b n s) busy]
      exact busy
    · rw [(writeCaption_busy (s := readdressed a b n s) busy b _ items self).1]
      exact Vector.getElem_set_self _

/-- Each channel reacts to its own items. -/
theorem channelChanged_reacted (old : Configuration) (n : Fin 8) (s : State) :
    Reacted old.channels[n] s.config.channels[n] n s (channelChanged old n s) := by
  rw [channelChanged_parts]
  by_cases h : old.channels[n].enabled = true ∧ s.config.channels[n].enabled = false
  · rw [unmutedBy_of_disabled h.2, disabledBy, if_pos (by rw [h.1, h.2]; rfl)]
    exact reacted_disabling rfl h.1 h.2
  · have kept : old.channels[n].enabled = false ∨ s.config.channels[n].enabled = true :=
      (Decidable.not_and_iff_not_or_not.1 h).imp Bool.eq_false_of_not_eq_true Bool.eq_true_of_not_eq_false
    rw [disabledBy_of_kept kept]
    exact reacted_kept rfl kept

end reaction

/-! ### All channels in turn -/

/-- What is done for some channels in turn, each leaving the others apart, leaves any other channel apart. -/
theorem foldl_leaves {f : Fin 8 → State → State} {n : Fin 8} (hf : ∀ k s, n ≠ k → Apart n s (f k s))
    {l : List (Fin 8)} (hn : n ∉ l) (s : State) : Apart n s (l.foldl (fun s k => f k s) s) := by
  induction l generalizing s with
  | nil => exact .refl n s
  | cons k rest ih =>
    obtain ⟨hk, hrest⟩ := not_or.1 (mt List.mem_cons.2 hn)
    exact (hf k s hk).trans (ih hrest (f k s))

/-- What is done for every channel, each leaving the others apart, does for a channel what it does in some state that
has come to it apart, and leaves that apart. -/
theorem forChannels_leaves {f : Fin 8 → State → State} {n : Fin 8} (hf : ∀ k s, n ≠ k → Apart n s (f k s)) (s : State) :
    ∃ u, Apart n s u ∧ Apart n (f n u) (forChannels f s) := by
  obtain ⟨before, after, split⟩ := List.append_of_mem (mem_allChannels n)
  have distinct : (before ++ n :: after).Nodup := split ▸ (by decide : allChannels.Nodup)
  obtain ⟨-, hafter, apart⟩ := List.nodup_append.1 distinct
  have hbefore : n ∉ before := fun h => apart n h n List.mem_cons_self rfl
  refine ⟨before.foldl (fun s k => f k s) s, foldl_leaves hf hbefore s, ?_⟩
  rw [forChannels, split, List.foldl_append, List.foldl_cons]
  exact foldl_leaves hf (List.nodup_cons.1 hafter).1 _

/-- Among the reactions of all channels each reacts to its own items. -/
theorem reactions_reacted (old : Configuration) (n : Fin 8) (s : State) :
    Reacted old.channels[n] s.config.channels[n] n s (forChannels (channelChanged old) s) := by
  obtain ⟨u, before, after⟩ := forChannels_leaves (fun _ s h => channelChanged_apart old h s) s
  have own := channelChanged_reacted old n u
  rw [before.config] at own
  exact own.among before after

theorem reactions_reactsOnly (old : Configuration) (s : State) :
    ReactsOnly s (forChannels (channelChanged old) s) :=
  forChannels_keeps ReactsOnly .refl (fun _ _ _ => .trans) _ (channelChanged_reactsOnly old) s

end Sys2Proof.Machine
end

section
/-! SET_CONFIG (R164, R167): what its list comes to when it takes effect, its refusals, and its answer. -/

namespace Sys2Proof.Machine

/-! ### The list taking effect (R51, R167) -/

/-- The state with the values of a list in place, in which no block has yet reacted (R166, R167). -/
def configured (pairs : List ConfigPair) (s : State) : State :=
  (s.withConfig (applyPairs s.config pairs)).withManagement
    { s.management with valid := s.management.valid && !pairs.any pairStructural }

/-- The state in which every channel has reacted to a list. -/
def reacted (pairs : List ConfigPair) (s : State) : State :=
  forChannels (channelChanged s.config) (configured pairs s)

section taking
variable {pairs : List ConfigPair} {s : State}

theorem configured_eq : configured pairs s =
    (if pairs.any pairStructural then
      (s.withConfig (applyPairs s.config pairs)).withManagement { s.management with valid := false }
    else s.withConfig (applyPairs s.config pairs)) := by
  unfold configured
  cases pairs.any pairStructural with
  | true => simp
  | false =>
    simp only [Bool.not_false, Bool.and_true, Bool.false_eq_true, if_false]
    rfl

/-- A list taking effect: its values in place, the channels' reactions, then arming where an item of the watch or the
release has changed. -/
theorem configTaken_eq : configTaken pairs s =
    if watchItemsChanged s.config.engine (reacted pairs s).config.engine then arm (reacted pairs s)
    else reacted pairs s := by
  unfold reacted
  rw [configured_eq]
  rfl

theorem reacted_only (pairs : List ConfigPair) (s : State) : ReactsOnly (configured pairs s) (reacted pairs s) :=
  reactions_reactsOnly s.config (configured pairs s)

theorem configTaken_only (pairs : List ConfigPair) (s : State) :
    ReactsOnly (configured pairs s) (configTaken pairs s) := by
  rw [configTaken_eq]
  split
  · exact (reacted_only pairs s).trans (arm_only _).reacts
  · exact reacted_only pairs s

/-- Outside RUN, or with the items of the watch and the release as before, the channels' reactions are all (R51). -/
theorem configTaken_unarmed (h : s.control.show_ ≠ .run ∨
    watchItemsChanged s.config.engine (applyPairs s.config pairs).engine = false) :
    configTaken pairs s = reacted pairs s := by
  have config : (reacted pairs s).config = applyPairs s.config pairs := (reacted_only pairs s).config
  rw [configTaken_eq, config]
  rcases h with notRun | same
  · obtain ⟨_, _, only⟩ := reacted_only pairs s
    have show_ : (reacted pairs s).control.show_ ≠ .run := by
      rw [only.control]
      exact notRun
    rw [arm_of_notRunning show_, ite_self]
  · rw [same]
    exact if_neg Bool.false_ne_true

/-! ### Accepted and refused (R164, R167) -/

theorem noneOutOfRange (inRange : pairs.all pairInRange = true) : pairs.findIdx? (fun p => !pairInRange p) = none :=
  List.findIdx?_eq_none_iff.2 fun p hp => by rw [List.all_eq_true.1 inRange p hp]; rfl

theorem doSetConfig_taken (sized : pairs.all pairSized = true) (inRange : pairs.all pairInRange = true)
    (free : pairs.any pairStructural = true → s.control.show_ = .dark ∧ s.store.isLoading = false) :
    doSetConfig pairs s = .answer (configTaken pairs s) .ok [] := by
  rw [doSetConfig, if_neg (not_not.2 sized), noneOutOfRange inRange]
  refine (if_neg fun ⟨structural, away⟩ => away (free structural).1).trans (if_neg fun ⟨structural, loading⟩ => ?_)
  rw [(free structural).2] at loading
  exact Bool.false_ne_true loading

theorem doSetConfig_range {i : Nat} {p : ConfigPair} (sized : pairs.all pairSized = true) (hp : pairs[i]? = some p)
    (out : pairInRange p = false) (before : (pairs.take i).all pairInRange = true) :
    doSetConfig pairs s = .answer s .range (be 1 (i + 1)) := by
  obtain ⟨bound, rfl⟩ := List.getElem?_eq_some_iff.1 hp
  have first : pairs.findIdx? (fun p => !pairInRange p) = some i := by
    refine List.findIdx?_eq_some_iff_getElem.2 ⟨bound, by rw [out]; rfl, fun j hj => ?_⟩
    have held := List.all_eq_true.1 before _ (List.mem_take_iff_getElem.2 ⟨j, by omega, rfl⟩)
    simp [held]
  rw [doSetConfig, if_neg (not_not.2 sized), first]

theorem doSetConfig_state (sized : pairs.all pairSized = true) (inRange : pairs.all pairInRange = true)
    (structural : pairs.any pairStructural = true) (away : s.control.show_ ≠ .dark) :
    doSetConfig pairs s = .answer s .state (be 1 s.control.show_.code) := by
  rw [doSetConfig, if_neg (not_not.2 sized), noneOutOfRange inRange]
  exact if_pos ⟨structural, away⟩

theorem doSetConfig_busy (sized : pairs.all pairSized = true) (inRange : pairs.all pairInRange = true)
    (structural : pairs.any pairStructural = true) (dark : s.control.show_ = .dark)
    (loading : s.store.isLoading = true) : doSetConfig pairs s = .answer s .busy [0] := by
  have code : showData s = [0] := by
    rw [showData, dark]
    rfl
  rw [doSetConfig, if_neg (not_not.2 sized), noneOutOfRange inRange]
  refine (if_neg fun ⟨_, away⟩ => away dark).trans ((if_pos ⟨structural, loading⟩).trans ?_)
  rw [refuse, code]

end taking

/-! ### The answer -/

section answer
variable {pairs : List ConfigPair} {s u t : State} {g : Handling}

/-- A list taken and answered keeps to the reactions' width from the state with its values in place. -/
theorem ReactsOnly.answered (h : ReactsOnly (configured pairs (takeInHand g s)) u) (hs : s.management.handling = none)
    (result : Result) (data : List Byte) : ReactsOnly (configured pairs s) (respond g result data u) := by
  obtain ⟨placements, tools, only⟩ := h
  exact ⟨placements, tools, FiresOnly.answered
    (s := ((configured pairs s).withPlacements placements).withTools tools) only hs result data⟩

/-- The answer leaves every channel apart. -/
theorem respond_apart (g : Handling) (result : Result) (data : List Byte) (n : Fin 8) (s : State) :
    Apart n s (respond g result data s) := by
  obtain ⟨u, counted, placed⟩ := respond_only g result data s
  have ended : Apart n u (u.withManagement { u.management with handling := none }) :=
    ⟨rfl, rfl, rfl, fun busy => ⟨busy, rfl⟩, id, id⟩
  exact ((counted.apart n).trans ended).trans (placed.toNoticesOnly.apart n)

/-- A reaction from the state with a list's values in place and its request in hand is one from the state before. -/
theorem Reacted.unconfigured {a b : ChannelConfig} {n : Fin 8}
    (h : Reacted a b n (configured pairs (takeInHand g s)) t) : Reacted a b n s t :=
  ⟨h.present, h.emptied, h.kept, h.written, h.silent⟩

/-- Where a list's reactions are all it does, each channel has reacted to its own items when it is answered. -/
theorem answer_reacted (h : s.control.show_ ≠ .run ∨
      watchItemsChanged s.config.engine (applyPairs s.config pairs).engine = false) (n : Fin 8) :
    Reacted s.config.channels[n] (applyPairs s.config pairs).channels[n] n s
      (respond g .ok [] (configTaken pairs (takeInHand g s))) := by
  rw [configTaken_unarmed (s := takeInHand g s) h]
  exact (reactions_reacted s.config n (configured pairs (takeInHand g s))).among (.refl n _) (respond_apart g .ok [] n _)
    |>.unconfigured

end answer

/-! ### A reaction read by its items -/

section reading
variable {a b : ChannelConfig} {n : Fin 8} {s t : State}

/-- A disabled channel is OFF, DARK and empty, keeps its number, has no level-3 message and no test (R73, R110, R180). -/
theorem Reacted.disabled (h : Reacted a b n s t) (ha : a.enabled = true) (hb : b.enabled = false) :
    t.channels[n].layer = .off ∧ t.channels[n].current = none ∧ t.channels[n].next = none ∧
      t.channels[n].queue = [] ∧ t.channels[n].content = .dark ∧ t.channels[n].number = s.channels[n].number ∧
      messageAt t n .alert = none ∧ (∀ r, s.tools.running = .test r → r.channel = n → t.tools.running = .none) := by
  obtain ⟨channel, message, idle⟩ := h.emptied ha hb
  rw [channel]
  exact ⟨rfl, rfl, rfl, rfl, rfl, rfl, message, fun r running same => idle (withheld_iff.2 ⟨r, running, same⟩)⟩

theorem unmutes_of_untested (ha : a.muted = true) (hb : b.muted = false) (enabled : b.enabled = true)
    (untested : ∀ r, s.tools.running = .test r → r.channel ≠ n) : unmutes a b n s = true := by
  have free : withheld s n = false := Bool.eq_false_iff.2 fun tested => by
    obtain ⟨r, running, same⟩ := withheld_iff.1 tested
    exact untested r running same
  simp [unmutes, ha, hb, enabled, free]

theorem not_unmutes (h : a.muted = false ∨ b.muted = true ∨ b.enabled = false ∨
    ∃ r, s.tools.running = .test r ∧ r.channel = n) : unmutes a b n s = false := by
  unfold unmutes
  rcases h with h | h | h | tested
  · rw [h, Bool.false_and, Bool.false_and, Bool.false_and]
  · rw [h, Bool.not_true, Bool.and_false, Bool.false_and, Bool.false_and]
  · rw [h, Bool.and_false, Bool.false_and]
  · rw [withheld_iff.2 tested, Bool.not_true, Bool.and_false]

end reading

end Sys2Proof.Machine

namespace Sys2Proof.Proofs
open Sys2Proof.Machine

/-- Settles O50: the values from the list, the channels' reactions each among those of the others, the refusals in the
order of the checks. -/
theorem setConfigAppliesTheWholeList : Obligations.SetConfigAppliesTheWholeList := by
  intro m h pairs s₀ s hs fits
  obtain ⟨payload, sized⟩ := Bool.and_eq_true_iff.1 fits
  have short := of_decide_eq_true payload
  refine ⟨fun inRange free => ?_, fun i p hp out before => ?_, fun inRange structural away => ?_,
    fun inRange structural dark loading => ?_⟩
  · obtain ⟨hrun, hanswered⟩ := request_answered h (.setConfig pairs) _ _ _ hs short
      (doSetConfig_taken sized inRange free)
    obtain ⟨_, _, only⟩ := (configTaken_only pairs (inHand h (.setConfig pairs) s)).answered hs.handling .ok []
    obtain ⟨-, -, -, hconfig, -, -⟩ := only.outside
    obtain ⟨hfifo, -, hvalid⟩ := only.requests
    obtain ⟨htracker, htable⟩ := only.score
    obtain ⟨hprotection, -, -, -, hcells⟩ := only.storeKept
    refine ⟨_, hrun, hanswered, fun item _ => ?_, hvalid, htracker, htable, only.control, hprotection, hfifo, hcells,
      fun unarmed n => ?_⟩
    · rw [hconfig]
      refine (applyPairs_value (List.all_eq_true.1 inRange) item).trans ?_
      change _ = match pairs.reverse.find? (namesItem item) with
        | some p => ofBe p.value
        | none => s.config.value item
      cases pairs.reverse.find? (namesItem item) <;> rfl
    · rw [hconfig] at unarmed ⊢
      have own := answer_reacted (g := handlingOf h (requestCode (.setConfig pairs))) unarmed n
      exact ⟨own.present, own.disabled, own.kept,
        fun ha hb enabled untested => (own.written (unmutes_of_untested ha hb enabled untested)).imp_right
          fun slot busy => (slot busy).2,
        fun silent => own.silent (not_unmutes silent)⟩
  · exact request_answeredOnly h _ _ _ hs short (doSetConfig_range sized hp out before)
  · exact request_answeredOnly h _ _ _ hs short (doSetConfig_state sized inRange structural away)
  · exact request_answeredOnly h _ _ _ hs short (doSetConfig_busy sized inRange structural dark loading)

end Sys2Proof.Proofs
end

section
/-! The bounded queues (R79, R152, R162, R171) through the operations of ports, notices, channels and cues: the relation
`KeepsQueues`, and a lemma for each operation. Only an admitted notice, a joining item and a frame or request that finds
a place make a queue longer. -/

namespace Sys2Proof.Machine

/-! ### The relation -/

/-- What led from s to t keeps every queue within its places. -/
def KeepsQueues (s t : State) : Prop := queuesSound s → queuesSound t

namespace KeepsQueues

variable {s t u : State}

theorem refl (s : State) : KeepsQueues s s := id

theorem trans (h : KeepsQueues s t) (k : KeepsQueues t u) : KeepsQueues s u := fun hs => k (h hs)

/-- The same, the second part first: what it starts from then needs no name. -/
theorem after (k : KeepsQueues t u) (h : KeepsQueues s t) : KeepsQueues s u := h.trans k

/-- The link replaced, its FIFOs no longer than before. -/
theorem link (s : State) {l : Link} (hd : l.downFifo.length ≤ s.link.downFifo.length)
    (hu : l.upFifo.length ≤ s.link.upFifo.length) : KeepsQueues s (s.withLink l) :=
  fun ⟨down, up, rest⟩ => ⟨hd.trans down, hu.trans up, rest⟩

/-- The management block replaced, its request FIFO and notice queue no longer than before. -/
theorem management (s : State) {g : Management} (hf : g.fifo.length ≤ s.management.fifo.length)
    (hn : g.notices.length ≤ s.management.notices.length) : KeepsQueues s (s.withManagement g) :=
  fun ⟨down, up, fifo, notices, channels⟩ => ⟨down, up, hf.trans fifo, hn.trans notices, channels⟩

/-- Blocks without a bounded queue replaced. -/
theorem tracker (s : State) (k : Tracker) : KeepsQueues s (s.withTracker k) := id
theorem table (s : State) (x : CueTable) : KeepsQueues s (s.withTable x) := id
theorem staging (s : State) (g : Staging) : KeepsQueues s (s.withStaging g) := id
theorem firing (s : State) (f : Firing) : KeepsQueues s (s.withFiring f) := id
theorem placements (s : State) (x : List Placement) : KeepsQueues s (s.withPlacements x) := id
theorem control (s : State) (x : Control) : KeepsQueues s (s.withControl x) := id
theorem tools (s : State) (x : Tools) : KeepsQueues s (s.withTools x) := id

/-- The store replaced: its read queue is not one of the bounded queues. -/
theorem store (s : State) (x : Store) : KeepsQueues s (s.withStore x) := id

/-- A channel replaced by one whose items have their places. -/
theorem channel (s : State) (n : Fin 8) {x : Channel} (h : queuesSound s → x.queue.length ≤ Config.pendingPlaces) :
    KeepsQueues s (s.withChannel n x) := by
  intro hs
  have place := h hs
  obtain ⟨down, up, fifo, notices, channels⟩ := hs
  refine ⟨down, up, fifo, notices, fun k => ?_⟩
  by_cases hk : k = n
  · rw [hk, withChannel_self]
    exact place
  · rw [withChannel_other s n k x hk]
    exact channels k

/-- A channel replaced by one with no longer a queue. -/
theorem shorter (s : State) (n : Fin 8) {x : Channel} (h : x.queue.length ≤ s.channels[n].queue.length) :
    KeepsQueues s (s.withChannel n x) :=
  channel s n fun ⟨_, _, _, _, channels⟩ => h.trans (channels n)

/-- Done for every channel in turn. -/
theorem forChannels {f : Fin 8 → State → State} (h : ∀ n s, KeepsQueues s (f n s)) (s : State) :
    KeepsQueues s (Machine.forChannels f s) :=
  forChannels_keeps KeepsQueues .refl (fun _ _ _ => .trans) f h s

end KeepsQueues

/-- After a reset every queue is empty. -/
theorem poweredUp_queuesSound (straps : BitVec 4) (cells : Cells) (protection : BitVec 8) :
    queuesSound (State.poweredUp straps cells protection) := by
  have channel : ∀ n : Fin 8, (State.poweredUp straps cells protection).channels[n] = Channel.initial :=
    fun n => Vector.getElem_replicate _
  refine ⟨Nat.zero_le _, Nat.zero_le _, Nat.zero_le _, Nat.zero_le _, fun n => ?_⟩
  rw [channel]
  exact Nat.zero_le _

/-! ### Port U and counting (R157, R170, R171) -/

/-- The U arbiter only takes from a queue. -/
theorem chooseU_keepsQueues (s : State) : KeepsQueues s (chooseU s) := by
  have noted : ∀ q rest, s.management.notices = q :: rest → KeepsQueues s (sendNotice q rest s) := fun q rest h => by
    have taken : KeepsQueues s (s.withManagement { s.management with notices := rest }) :=
      .management s (Nat.le_refl _) (h ▸ Nat.le_succ _)
    exact taken.trans (.link _ (Nat.le_refl _) (Nat.le_refl _))
  have upward : ∀ f rest, s.link.upFifo = f :: rest → KeepsQueues s (sendUp f rest s) := fun f rest h =>
    .link s (Nat.le_refl _) (h ▸ Nat.le_succ _)
  unfold chooseU
  split
  · exact .refl s
  · split
    · unfold sendResponse
      dsimp only
      split <;> exact id
    · split
      · next notices => exact noted _ _ notices
      · next upFifo => exact upward _ _ upFifo
      · next upFifo => exact upward _ _ upFifo
      · next notices _ => exact noted _ _ notices
      · exact .refl s

/-- A notice joins only where a place is free (R171). -/
theorem admitNotice_keepsQueues (n : Notice) (s : State) : KeepsQueues s (admitNotice n s) := by
  unfold admitNotice
  dsimp only
  split
  · split
    · next place =>
      intro ⟨down, up, fifo, _, channels⟩
      refine ⟨down, up, fifo, ?_, channels⟩
      rw [withManagement_management, List.length_append]
      exact place
    · exact id
  · exact id

theorem notify_keepsQueues (n : Notice) (s : State) : KeepsQueues s (notify n s) :=
  (chooseU_keepsQueues _).after (admitNotice_keepsQueues n s)

theorem notifyAll_keepsQueues (ns : List Notice) (s : State) : KeepsQueues s (notifyAll ns s) :=
  foldl_keeps KeepsQueues .refl (fun _ _ _ => .trans) _ (fun s n => notify_keepsQueues n s) ns s

theorem placeResponse_keepsQueues (r : Response) (s : State) : KeepsQueues s (placeResponse r s) :=
  (chooseU_keepsQueues _).after (.link s (Nat.le_refl _) (Nat.le_refl _))

/-- Counting holds its notice back, outside the queue (R170). -/
theorem count_keepsQueues (name : CounterName) (s : State) : KeepsQueues s (count name s) := by
  unfold count
  dsimp only
  split <;> exact id

theorem countTimes_keepsQueues (name : CounterName) (k : Nat) (s : State) : KeepsQueues s (countTimes name k s) := by
  induction k generalizing s with
  | zero => exact .refl s
  | succ k ih => exact (count_keepsQueues name s).trans (ih _)

theorem offerHalves_keepsQueues (s : State) : KeepsQueues s (offerHalves s) :=
  (notifyAll_keepsQueues s.management.halves _).after (.management s (Nat.le_refl _) (Nat.le_refl _))

/-! ### Port D (R154, R155, R156) -/

theorem serveD_keepsQueues {source : SourceD} {s t : State} (h : serveD source s = some t) : KeepsQueues s t := by
  unfold serveD at h
  split at h
  · obtain ⟨p, -, rfl⟩ := Option.map_eq_some_iff.1 h
    exact .link s (Nat.le_refl _) (Nat.le_refl _)
  · obtain ⟨f, -, rfl⟩ := Option.map_eq_some_iff.1 h
    unfold sendTool countSent
    dsimp only
    split <;> exact id
  · split at h
    · cases h
    · next f rest down =>
      obtain rfl := Option.some.inj h
      exact .link s (down ▸ Nat.le_succ _) (Nat.le_refl _)

/-- The D arbiter only takes from a queue. -/
theorem chooseD_keepsQueues (s : State) : KeepsQueues s (chooseD s) := by
  unfold chooseD
  split
  · exact .refl s
  · cases h : (circularFrom s.link.dNext).findSome? (fun source => serveD source s) with
    | none => exact .refl s
    | some t =>
      obtain ⟨source, -, served⟩ := List.exists_of_findSome?_eq_some h
      exact serveD_keepsQueues served

theorem putCaption_keepsQueues (c : Caption) (s : State) : KeepsQueues s (putCaption c s) :=
  (chooseD_keepsQueues _).after (.link s (Nat.le_refl _) (Nat.le_refl _))

theorem offerTool_keepsQueues (t : ToolFrame) (s : State) : KeepsQueues s (offerTool t s) := by
  unfold offerTool
  split
  · exact (chooseD_keepsQueues _).after (.link s (Nat.le_refl _) (Nat.le_refl _))
  · exact .link s (Nat.le_refl _) (Nat.le_refl _)

theorem leaveTool_keepsQueues (s : State) : KeepsQueues s (leaveTool s) := .link s (Nat.le_refl _) (Nat.le_refl _)

/-! ### Captions and slips (R88 to R92) -/

theorem writeCaption_keepsQueues (n : Fin 8) (s : State) : KeepsQueues s (writeCaption n s) :=
  (putCaption_keepsQueues _ _).after (.shorter s n (Nat.le_refl _))

theorem recompose_keepsQueues (n : Fin 8) (why : Arrived) (s : State) : KeepsQueues s (recompose n why s) := by
  have stored : KeepsQueues s (s.withChannel n { s.channels[n] with content := contentOf s n }) :=
    .shorter s n (Nat.le_refl _)
  unfold recompose
  dsimp only
  split
  · split
    · exact stored
    · exact stored.trans (writeCaption_keepsQueues n _)
  · exact .refl s

theorem takeEffect_keepsQueues (n : Fin 8) (i : Item) (s : State) : KeepsQueues s (takeEffect n i s) := by
  unfold takeEffect
  extract_lets slip s1 src s2
  have h1 : KeepsQueues s s1 := by
    unfold s1
    split
    · exact notify_keepsQueues _ s
    · exact .refl s
  have h2 : KeepsQueues s s2 := h1.trans (.shorter s1 n (Nat.le_refl _))
  split
  · exact h2.trans (count_keepsQueues _ _)
  · exact h2

theorem showTitle_keepsQueues (n : Fin 8) (i : Item) (s : State) : KeepsQueues s (showTitle n i s) :=
  (takeEffect_keepsQueues n i _).after ((recompose_keepsQueues n _ _).after (.shorter s n (Nat.le_refl _)))

theorem takeBlank_keepsQueues (n : Fin 8) (i : Item) (s : State) : KeepsQueues s (takeBlank n i s) :=
  (takeEffect_keepsQueues n i _).after ((recompose_keepsQueues n _ _).after (.shorter s n (Nat.le_refl _)))

/-! ### Release and arrival (R79 to R87) -/

/-- A release only takes items from its channel's queue. -/
theorem releaseLoop_keepsQueues (n : Fin 8) (fuel : Nat) (s : State) : KeepsQueues s (releaseLoop n fuel s) := by
  induction fuel generalizing s with
  | zero => exact .refl s
  | succ fuel ih =>
    unfold releaseLoop
    dsimp only
    split
    · exact .refl s
    · next i rest queue =>
      have taken : KeepsQueues s (s.withChannel n { s.channels[n] with queue := rest }) :=
        .shorter s n (queue ▸ Nat.le_succ _)
      split
      · exact .refl s
      · split
        · exact .shorter s n (queue ▸ Nat.le_refl _)
        · split
          · exact (taken.trans (takeBlank_keepsQueues n _ _)).trans (ih _)
          · split
            · exact taken.trans (showTitle_keepsQueues n _ _)
            · exact (recompose_keepsQueues n _ _).after (taken.trans (.shorter _ n (Nat.le_refl _)))

theorem release_keepsQueues (n : Fin 8) (s : State) : KeepsQueues s (release n s) := by
  unfold release
  split
  · exact releaseLoop_keepsQueues n _ s
  · exact .refl s

theorem catchUpJoin_keepsQueues (n : Fin 8) (s : State) : KeepsQueues s (catchUpJoin n s) := by
  unfold catchUpJoin
  dsimp only
  split
  · split
    · exact (release_keepsQueues n _).after (.shorter s n (Nat.le_refl _))
    · exact .shorter s n (Nat.le_refl _)
  · exact .refl s

theorem dropOldest_keepsQueues (n : Fin 8) (s : State) : KeepsQueues s (dropOldest n s) := by
  unfold dropOldest
  split
  · next i rest queue =>
    have taken : KeepsQueues s (s.withChannel n { s.channels[n] with queue := rest }) :=
      .shorter s n (queue ▸ Nat.le_succ _)
    exact (taken.trans (count_keepsQueues _ _)).trans (notify_keepsQueues _ _)
  · exact .refl s

/-- Drop-oldest frees a place (R79). -/
theorem dropOldest_queue (n : Fin 8) (s : State) : (dropOldest n s).channels[n].queue = s.channels[n].queue.tail := by
  cases queue : s.channels[n].queue with
  | nil => simp only [dropOldest, queue, List.tail_nil]
  | cons i rest =>
    rw [dropOldest_channels queue]
    exact congrArg Channel.queue (Vector.getElem_set_self _)

/-- An item joins a queue with a place, or takes the place of the oldest (R79). -/
theorem joined_keepsQueues (n : Fin 8) (i : Item) (s : State) :
    KeepsQueues s (joined n i (if Config.pendingPlaces ≤ s.channels[n].queue.length then dropOldest n s else s)) := by
  split
  · intro hs
    have bound : s.channels[n].queue.length ≤ 3 := hs.2.2.2.2 n
    refine KeepsQueues.channel (dropOldest n s) n (fun _ => ?_) (dropOldest_keepsQueues n s hs)
    rw [List.length_append, dropOldest_queue, List.length_tail]
    exact (by omega : s.channels[n].queue.length - 1 + 1 ≤ 3)
  · next place =>
    refine .channel s n fun _ => ?_
    rw [List.length_append]
    exact Nat.lt_of_not_le place

theorem withdrawLost_keepsQueues (n : Fin 8) (lost : List Item) (s : State) : KeepsQueues s (withdrawLost n lost s) := by
  obtain ⟨awaited, h⟩ := withdrawLost_eq n lost s
  rw [h]
  exact id

theorem itemJoins_keepsQueues (n : Fin 8) (i : Item) (s : State) : KeepsQueues s (itemJoins n i s) := by
  have settled : ∀ u, KeepsQueues u (afterJoin n u) := fun u => by
    unfold afterJoin
    split
    · exact catchUpJoin_keepsQueues n u
    · exact release_keepsQueues n u
    · exact release_keepsQueues n u
    · exact .refl u
    · exact .refl u
  rw [itemJoins_eq]
  exact (settled _).after ((withdrawLost_keepsQueues n _ _).after (joined_keepsQueues n i s))

theorem itemResyncs_keepsQueues (n : Fin 8) (i : Item) (s : State) : KeepsQueues s (itemResyncs n i s) := by
  unfold itemResyncs
  extract_lets c lost emptied src s0 s1
  split
  · have alone : KeepsQueues s s0 := .channel s n fun _ => (by decide : 1 ≤ 3)
    exact ((alone.trans (withdrawLost_keepsQueues n _ _)).trans (recompose_keepsQueues n _ _)).trans
      (release_keepsQueues n _)
  · have cleared : KeepsQueues s s1 := (withdrawLost_keepsQueues n _ _).after (.shorter s n (Nat.zero_le _))
    split
    · exact cleared.trans (showTitle_keepsQueues n i _)
    · exact cleared.trans (takeBlank_keepsQueues n i _)

theorem itemArrives_keepsQueues (n : Fin 8) (i : Item) (s : State) : KeepsQueues s (itemArrives n i s) := by
  unfold itemArrives
  split_ifs
  · exact withdrawLost_keepsQueues n _ s
  · exact itemResyncs_keepsQueues n i s
  · exact itemJoins_keepsQueues n i s

theorem deliver_keepsQueues (k : Key) (result : Staged) (n : Fin 8) (s : State) :
    KeepsQueues s (deliver k result n s) := by
  have taken : KeepsQueues s (s.withChannel n (s.channels[n].takes k result)) :=
    .shorter s n (List.length_map _).le
  unfold deliver
  dsimp only
  split
  · exact taken.trans (release_keepsQueues n _)
  · exact taken

theorem gapExpired_keepsQueues (n : Fin 8) (s : State) : KeepsQueues s (gapExpired n s) := by
  unfold gapExpired
  dsimp only
  split
  · split
    · exact (showTitle_keepsQueues n _ _).after (.shorter s n (Nat.le_refl _))
    · exact .refl s
  · exact .refl s

theorem readingExpired_keepsQueues (n : Fin 8) (s : State) : KeepsQueues s (readingExpired n s) := by
  unfold readingExpired
  dsimp only
  split
  · split
    · exact (release_keepsQueues n _).after (.shorter s n (Nat.le_refl _))
    · exact (release_keepsQueues n _).after (.shorter s n (Nat.le_refl _))
    all_goals exact .shorter s n (Nat.le_refl _)
  · exact .refl s

theorem tellChannels_keepsQueues (set : ChannelSet) (why : Arrived) (s : State) :
    KeepsQueues s (tellChannels set why s) :=
  KeepsQueues.forChannels (fun n s => by
    split
    · exact recompose_keepsQueues n why s
    · exact .refl s) s

theorem emptyChannels_keepsQueues (layer : Layer) (s : State) : KeepsQueues s (emptyChannels layer s) :=
  KeepsQueues.forChannels (fun n s => by
    unfold emptyChannel
    split
    · exact (recompose_keepsQueues n _ _).after (.shorter s n (Nat.zero_le _))
    · exact .refl s) s

/-! ### Staging (R40 to R45) -/

/-- Looking for work touches no bounded queue. -/
theorem stage_keepsQueues (s : State) : KeepsQueues s (stage s) := by
  obtain ⟨reading, queue, suspended, h⟩ := stage_eq s
  rw [h]
  exact id

theorem stagingAdvance_keepsQueues (s : State) : KeepsQueues s (stagingAdvance s) := (stage_keepsQueues _).after id

theorem flush_keepsQueues (s : State) : KeepsQueues s (flush s) := (stage_keepsQueues _).after id

/-! ### Fires and arming (R51 to R61) -/

theorem fireChannel_keepsQueues (i : Nat) (resync : Bool) (n : Fin 8) (s : State) :
    KeepsQueues s (fireChannel i resync n s) := by
  unfold fireChannel
  split
  · exact .refl s
  · split
    · dsimp only
      split
      · exact (itemArrives_keepsQueues n _ _).after ((stage_keepsQueues _).after id)
      · exact itemArrives_keepsQueues n _ s
    · exact itemArrives_keepsQueues n _ s
    · exact .refl s

theorem fireCue_keepsQueues (i : Nat) (cause : FireCause) (s : State) : KeepsQueues s (fireCue i cause s) := by
  unfold fireCue
  extract_lets s1 s2 s3 s4
  have h1 : KeepsQueues s s1 := KeepsQueues.forChannels (fireChannel_keepsQueues i _) s
  have h2 : KeepsQueues s s2 := (h1.trans (.firing s1 _)).trans (stagingAdvance_keepsQueues _)
  have h3 : KeepsQueues s s3 := by
    unfold s3
    split
    · exact h2.trans (flush_keepsQueues _)
    · exact h2
  have h4 : KeepsQueues s s4 := h3.trans (notify_keepsQueues _ _)
  split
  · exact h4.trans (notify_keepsQueues _ _)
  · exact h4

theorem fireRun_keepsQueues (start : Nat) (cause : FireCause) (s : State) : KeepsQueues s (fireRun start cause s) := by
  have counted : ∀ q, KeepsQueues s (overrun q s) := fun q => by
    unfold overrun
    dsimp only
    split
    · exact (countTimes_keepsQueues _ _ s).trans (notify_keepsQueues _ _)
    · exact .refl s
  exact (fireCue_keepsQueues _ cause _).after (counted _)

theorem fireDue_keepsQueues (d : DueFire) (s : State) : KeepsQueues s (fireDue d s) := by
  cases d with
  | nothing => exact .refl s
  | mark => exact fireRun_keepsQueues s.firing.pointer .mark s
  | count => exact fireCue_keepsQueues s.firing.pointer .count s
  | follow => exact fireCue_keepsQueues s.firing.pointer .follow s
  | watch start => exact fireRun_keepsQueues start .overrun s

theorem arm_keepsQueues (s : State) : KeepsQueues s (arm s) :=
  arm_keeps KeepsQueues .refl (fun _ _ _ => .trans) (fun _ => id) (fun _ => fireDue_keepsQueues _ _) s

theorem fire_keepsQueues (i : Nat) (cause : FireCause) (s : State) : KeepsQueues s (fire i cause s) :=
  (fireCue_keepsQueues i cause s).trans (arm_keepsQueues _)

theorem markExpired_keepsQueues (s : State) : KeepsQueues s (markExpired s) := by
  unfold markExpired
  split
  · split
    · exact (fireRun_keepsQueues _ _ s).trans (arm_keepsQueues _)
    · exact .refl s
  · exact .refl s

theorem followExpired_keepsQueues (s : State) : KeepsQueues s (followExpired s) := by
  unfold followExpired
  split
  · split
    · exact fire_keepsQueues _ _ s
    · exact .refl s
  · exact .refl s

theorem watchExpired_keepsQueues (s : State) : KeepsQueues s (watchExpired s) := by
  unfold watchExpired
  split
  · split
    · exact (fireRun_keepsQueues _ _ s).trans (arm_keepsQueues _)
    · exact .refl s
  · exact .refl s

/-! ### Reports, and GO frames (R51, R62 to R68) -/

theorem placePointer_keepsQueues (p : Nat) (s : State) : KeepsQueues s (placePointer p s) := by
  unfold placePointer
  dsimp only
  split <;> exact id

theorem reseekQuietly_keepsQueues (j : Nat) (s : State) : KeepsQueues s (reseekQuietly j s) :=
  (flush_keepsQueues _).after ((placePointer_keepsQueues j _).after id)

theorem reseek_keepsQueues (pos : Nat) (s : State) : KeepsQueues s (reseek pos s) := by
  unfold reseek
  dsimp only
  split_ifs
  · exact fire_keepsQueues _ _ s
  · exact (reseekQuietly_keepsQueues _ s).trans (arm_keepsQueues _)
  · exact reseekQuietly_keepsQueues _ s

theorem onReport_keepsQueues (e : ReportEvent) (s : State) : KeepsQueues s (onReport e s) := by
  have sought : KeepsQueues s (match e.reseek with | some p => reseek p s | none => s) := by
    split
    · exact reseek_keepsQueues _ s
    · exact .refl s
  have consulted : ∀ u, KeepsQueues u (consultCount e u) := fun u => by
    unfold consultCount
    split
    · split <;> exact id
    · exact .refl u
  unfold onReport
  dsimp only
  split
  · exact sought.trans (arm_keepsQueues _)
  · exact (sought.trans (consulted _)).trans (arm_keepsQueues _)

theorem ignoreGo_keepsQueues (reason : GoReason) (target : Label) (back : Bool) (f : Found) (s : State) :
    KeepsQueues s (ignoreGo reason target back f s) := by
  unfold ignoreGo
  dsimp only
  split
  · exact (count_keepsQueues _ s).trans (notify_keepsQueues _ _)
  · exact notify_keepsQueues _ s

theorem goInRun_keepsQueues (target : Label) (back : Bool) (f : Found) (s : State) :
    KeepsQueues s (goInRun target back f s) := by
  have fired := fun i cause => fire_keepsQueues i cause s
  have ignored := fun reason b => ignoreGo_keepsQueues reason target b f s
  unfold goInRun goBack goForward
  dsimp only
  split
  · split
    · split
      · exact fired _ _
      · exact ignored _ _
    · split
      · exact ignored _ _
      · split
        · split_ifs
          · exact fired _ _
          · exact ignored _ _
        · exact ignored _ _
  · split
    · split_ifs
      · exact fired _ _
      · exact ignored _ _
    · split
      · exact ignored _ _
      · split_ifs
        · exact fired _ _
        · exact fired _ _
        · exact ignored _ _

end Sys2Proof.Machine
end

section
/-! The bounded queues (R79, R152, R162, R171) through tracker, show states, requests, store, tools and frames, and
through every step. -/

namespace Sys2Proof.Machine

/-! ### The tracker into the engine (R7, R17, R23, R27, R28) -/

theorem track_keepsQueues (out : Tracked) (s : State) : KeepsQueues s (track out s) := by
  unfold track
  extract_lets s1 s2
  have counted : KeepsQueues s s1 :=
    (countTimes_keepsQueues _ _ _).after ((countTimes_keepsQueues _ _ (s.withTracker out.tracker)).after id)
  have said : KeepsQueues s s2 := (notifyAll_keepsQueues _ _).after counted
  split
  · exact said.trans (onReport_keepsQueues _ _)
  · exact said

theorem takePos_keepsQueues (seq : Byte) (payload : List Byte) (s : State) : KeepsQueues s (takePos seq payload s) := by
  unfold takePos
  split
  · exact .refl s
  · exact track_keepsQueues _ s

theorem trackDeadline_keepsQueues (out : Tracker × List Notice × Bool) (s : State) :
    KeepsQueues s (trackDeadline out s) := by
  have said : KeepsQueues s (notifyAll out.2.1 (s.withTracker out.1)) := (notifyAll_keepsQueues _ _).after id
  unfold trackDeadline
  dsimp only
  split
  · exact said.trans (arm_keepsQueues _)
  · exact said

theorem silenceExpiry_keepsQueues (s : State) : KeepsQueues s (silenceExpiry s) := by
  unfold silenceExpiry
  split
  · split
    · exact trackDeadline_keepsQueues _ s
    · exact .refl s
  · exact .refl s

theorem horizonExpiry_keepsQueues (s : State) : KeepsQueues s (horizonExpiry s) := by
  unfold horizonExpiry
  split
  · split
    · exact trackDeadline_keepsQueues _ s
    · exact .refl s
  · exact .refl s

theorem resetTracker_keepsQueues (beat : Nat) (s : State) : KeepsQueues s (resetTracker beat s) :=
  (notifyAll_keepsQueues _ _).after id

/-! ### Changes of show state, and the restart (R62, R136 to R141) -/

theorem showNotice_keepsQueues (previous : ShowState) (cause : ShowCause) (tag : Option Byte) (s : State) :
    KeepsQueues s (showNotice previous cause tag s) := notify_keepsQueues _ s

/-- The show in RUN, told, and armed (R136, R138). -/
theorem enterRun_keepsQueues (previous : ShowState) (cause : ShowCause) (tag : Option Byte) (s : State) :
    KeepsQueues s (enterRun previous cause tag s) :=
  (arm_keepsQueues _).after ((showNotice_keepsQueues previous cause tag (setShow .run s)).after id)

theorem takeGo_keepsQueues (payload : List Byte) (s : State) : KeepsQueues s (takeGo payload s) := by
  have ignored := fun target back => ignoreGo_keepsQueues .state target back (found s) s
  unfold takeGo
  dsimp only
  split
  · exact goInRun_keepsQueues _ _ _ s
  · split
    · exact (goInRun_keepsQueues _ _ _ _).after (enterRun_keepsQueues .hold .go none s)
    · exact ignored _ _
  · exact ignored _ _
  · exact ignored _ _

theorem stopShow_keepsQueues (tag : Byte) (s : State) : KeepsQueues s (stopShow tag s) := by
  unfold stopShow
  extract_lets previous s1 s2 src s3
  have h1 : KeepsQueues s s1 := (resetTracker_keepsQueues _ _).after (.control s _)
  have h2 : KeepsQueues s s2 := h1.trans (.firing s1 _)
  have h3 : KeepsQueues s s3 := (stage_keepsQueues _).after (h2.trans (.staging s2 _))
  exact (showNotice_keepsQueues _ _ _ _).after ((emptyChannels_keepsQueues _ _).after h3)

theorem unloadShow_keepsQueues (tag : Byte) (s : State) : KeepsQueues s (unloadShow tag s) := by
  unfold unloadShow
  extract_lets previous src₁ s1 s2 src₂ s3 s4 s5 src₃ s6
  have h1 : KeepsQueues s s1 := (resetTracker_keepsQueues _ _).after (.control s _)
  have h2 : KeepsQueues s s2 := (h1.trans (.table s1 _)).trans (.firing _ _)
  have h4 : KeepsQueues s s4 := (h2.trans (.staging s2 _)).trans (.placements s3 _)
  have h6 : KeepsQueues s s6 := (h4.trans (emptyChannels_keepsQueues .off s4)).trans (.store s5 _)
  exact (showNotice_keepsQueues _ _ _ _).after h6

/-- A restart leaves every queue empty but for what its own captions and notice make of them (R141, R160). -/
theorem restartEffect_keepsQueues (s : State) : KeepsQueues s (restartEffect s) := by
  have fresh : KeepsQueues s (restarted s) :=
    fun _ => poweredUp_queuesSound s.straps s.store.cells s.store.protection
  have told : ∀ n u, KeepsQueues u (darkCaption n u) := fun n u => by
    unfold darkCaption
    dsimp only
    split
    · exact (putCaption_keepsQueues _ _).after (.shorter u n (Nat.le_refl _))
    · exact .refl u
  have dark := fresh.trans (KeepsQueues.forChannels told _)
  unfold restartEffect
  dsimp only
  split
  · split
    · exact dark
    · exact dark.trans (showNotice_keepsQueues _ _ _ _)
  · exact .refl s

/-! ### Configuration (R167) -/

theorem endTest_keepsQueues (r : TestRecord) (cause : DoneResult) (s : State) : KeepsQueues s (endTest r cause s) := by
  unfold endTest
  extract_lets src s1 s2 k
  have told : KeepsQueues s s2 := (notify_keepsQueues _ _).after ((leaveTool_keepsQueues _).after (.tools s _))
  split
  · exact told
  · exact told.trans (writeCaption_keepsQueues _ _)

theorem channelDisabled_keepsQueues (n : Fin 8) (s : State) : KeepsQueues s (channelDisabled n s) := by
  have off : KeepsQueues s (silenced n s) :=
    KeepsQueues.trans (t := s.withChannel n s.channels[n].disabled) (.shorter s n (Nat.zero_le _)) id
  cases tested : withheld s n with
  | false =>
    rw [channelDisabled_untested tested]
    exact off
  | true =>
    obtain ⟨r, -, -, ended⟩ := channelDisabled_tested tested
    rw [ended]
    exact off.trans (endTest_keepsQueues _ _ _)

theorem channelChanged_keepsQueues (old : Configuration) (n : Fin 8) (s : State) :
    KeepsQueues s (channelChanged old n s) := by
  have disabled : ∀ a b, KeepsQueues s (disabledBy a b n s) := fun a b => by
    unfold disabledBy
    split
    · exact channelDisabled_keepsQueues n s
    · exact .refl s
  have unmuted : ∀ a b u, KeepsQueues u (unmutedBy a b n u) := fun a b u => by
    unfold unmutedBy
    split
    · exact writeCaption_keepsQueues n u
    · exact .refl u
  have moved : ∀ a b u, KeepsQueues u (readdressed a b n u) := fun a b u => .shorter u n (Nat.le_refl _)
  rw [channelChanged_parts]
  exact ((disabled _ _).trans (moved _ _ _)).trans (unmuted _ _ _)

theorem configTaken_keepsQueues (pairs : List ConfigPair) (s : State) : KeepsQueues s (configTaken pairs s) := by
  have changed : KeepsQueues s (reacted pairs s) :=
    (KeepsQueues.forChannels (channelChanged_keepsQueues s.config) (configured pairs s)).after id
  rw [configTaken_eq]
  split
  · exact changed.trans (arm_keepsQueues _)
  · exact changed

/-! ### Messages (R101, R104, R105) -/

theorem placeMessage_keepsQueues (tag : Byte) (level : Level) (set : ChannelSet) (duration : Nat) (text : List Byte)
    (s : State) : KeepsQueues s (placeMessage tag level set duration text s) := (tellChannels_keepsQueues _ _ _).after id

theorem messageExpired_keepsQueues (i : Nat) (s : State) : KeepsQueues s (messageExpired i s) := by
  unfold messageExpired
  split
  · exact .refl s
  · split
    · exact .refl s
    · split
      · exact (tellChannels_keepsQueues _ _ _).after ((notify_keepsQueues _ _).after id)
      · exact .refl s

/-! ### Tools (R174 to R180) -/

theorem takeAnswer_keepsQueues (source : Byte) (payload : List Byte) (s : State) :
    KeepsQueues s (takeAnswer source payload s) := by
  unfold takeAnswer
  dsimp only
  split
  · split_ifs <;> exact id
  · exact .refl s

theorem censusExpired_keepsQueues (s : State) : KeepsQueues s (censusExpired s) := by
  have marked : KeepsQueues s (forChannels markPresent s) :=
    KeepsQueues.forChannels (fun n u => by
      unfold markPresent
      split
      · exact .shorter u n (Nat.le_refl _)
      · exact .refl u) s
  unfold censusExpired
  split
  · split
    · exact (notify_keepsQueues _ _).after ((leaveTool_keepsQueues _).after (marked.trans (.tools _ _)))
    · exact .refl s
  · exact .refl s

theorem testFrameSent_keepsQueues (s : State) : KeepsQueues s (testFrameSent s) := by
  unfold testFrameSent
  split
  · split <;> exact .tools s _
  · exact .refl s

theorem testGapExpired_keepsQueues (s : State) : KeepsQueues s (testGapExpired s) := by
  unfold testGapExpired
  split
  · split
    · exact (offerTool_keepsQueues _ _).after (.tools s _)
    · exact .refl s
  · exact .refl s

theorem addErrors_keepsQueues (d : Nat) (s : State) : KeepsQueues s (addErrors d s) := by
  unfold addErrors
  split
  · split
    · exact .tools s _
    · exact (foldl_keeps KeepsQueues .refl (fun _ _ _ => .trans) _ (fun t _ => notify_keepsQueues _ t) _ _).after
        (.tools s _)
  · exact .refl s

theorem takeEcho_keepsQueues (payload : List Byte) (s : State) : KeepsQueues s (takeEcho payload s) := by
  unfold takeEcho
  split
  · dsimp only
    split_ifs
    · exact .refl s
    all_goals exact (addErrors_keepsQueues _ _).after (.tools s _)
  · exact .refl s

theorem testCompleted_keepsQueues (s : State) : KeepsQueues s (testCompleted s) := by
  unfold testCompleted
  split
  · split
    · exact endTest_keepsQueues _ _ s
    · exact .refl s
  · exact .refl s

/-! ### Reads and completions of the store (R41, R114 to R128) -/

theorem readUnit_keepsQueues (reader : Reader) (s : State) (unit : Nat) : KeepsQueues s (readUnit reader s unit) := by
  unfold readUnit
  split
  · dsimp only
    split
    · exact count_keepsQueues _ s
    · exact (count_keepsQueues .eccFailed s).trans (.store _ _)
  · split
    · exact count_keepsQueues _ s
    · exact .refl s

theorem readUnits_keepsQueues (reader : Reader) (units : List Nat) (s : State) :
    KeepsQueues s (readUnits reader units s) :=
  foldl_keeps KeepsQueues .refl (fun _ _ _ => .trans) _ (readUnit_keepsQueues reader) units s

theorem readOn_keepsQueues (reader : Reader) (units : List Nat) (s : State) : KeepsQueues s (readOn reader units s) := by
  refine foldl_keeps KeepsQueues .refl (fun _ _ _ => .trans) _ (fun s unit => ?_) units s
  have read := (readUnit_keepsQueues reader _ unit).after (offerHalves_keepsQueues s)
  exact read.trans (.store _ _)

theorem atMoment_keepsQueues (m : Moment) (s : State) : KeepsQueues s (atMoment m s) := by
  have region : ∀ u, KeepsQueues u (regionTaken u) := fun u => by
    unfold regionTaken
    split
    · split
      · split
        · exact .store u _
        · exact .refl u
      · exact .refl u
    · exact .refl u
  have ahead : ∀ u, KeepsQueues u (readAhead m.reads u) := fun u => by
    unfold readAhead
    split
    · split
      · exact (readOn_keepsQueues _ _ u).trans (region _)
      · exact .refl u
    · exact .refl u
  exact (offerHalves_keepsQueues _).after ((ahead _).after id)

theorem opDone_keepsQueues (op : OpName) (tag : Byte) (result : DoneResult) (data : List Byte) (s : State) :
    KeepsQueues s (opDone op tag result data s) := by
  unfold opDone
  split
  · exact notify_keepsQueues _ s
  · exact .refl s

theorem programCompleted_keepsQueues (s : State) : KeepsQueues s (programCompleted s) := by
  unfold programCompleted
  split
  · exact (opDone_keepsQueues _ _ _ _ _).after id
  · exact .refl s

theorem eraseCompleted_keepsQueues (s : State) : KeepsQueues s (eraseCompleted s) := by
  unfold eraseCompleted
  split
  · split
    · exact .refl s
    · exact (opDone_keepsQueues _ _ _ _ _).after id
  · exact .refl s

theorem protectionCompleted_keepsQueues (s : State) : KeepsQueues s (protectionCompleted s) := by
  unfold protectionCompleted
  split
  · exact (opDone_keepsQueues _ _ _ _ _).after id
  · exact (opDone_keepsQueues _ _ _ _ _).after id
  · exact .refl s

theorem finishReads_keepsQueues (reader : Reader) {finish : Option Nat → State → State}
    (hf : ∀ failure s, KeepsQueues s (finish failure s)) (s : State) : KeepsQueues s (finishReads reader finish s) := by
  unfold finishReads
  dsimp only
  split
  · exact .refl s
  · exact (hf _ _).after ((readOn_keepsQueues _ _ s).trans (.store _ _))

theorem verifyCompleted_keepsQueues (s : State) : KeepsQueues s (verifyCompleted s) := by
  unfold verifyCompleted
  split
  · refine finishReads_keepsQueues _ (fun failure t => ?_) s
    unfold verifyDone
    split <;> exact opDone_keepsQueues _ _ _ _ _
  · exact .refl s

theorem checksumCompleted_keepsQueues (s : State) : KeepsQueues s (checksumCompleted s) := by
  unfold checksumCompleted
  split
  · refine finishReads_keepsQueues _ (fun failure t => ?_) s
    unfold checksumDone
    split <;> exact opDone_keepsQueues _ _ _ _ _
  · exact .refl s

theorem loadSucceeds_keepsQueues (tag : Byte) (act : Nat) (region : Region) (langs : List Code) (beat : Nat)
    (cues : List Cue) (s : State) : KeepsQueues s (loadSucceeds tag act region langs beat cues s) := by
  have placed : KeepsQueues s (actPlaced act region langs beat cues s) := by
    unfold actPlaced
    extract_lets s1 s2 s3 s4
    have h3 : KeepsQueues s s3 :=
      (((KeepsQueues.table s _).trans (.tracker s1 _)).trans (.firing s2 _)).trans (.staging _ _)
    exact (h3.trans (.control s3 _)).trans (.store s4 _)
  unfold loadSucceeds
  extract_lets s1 s2
  have told : KeepsQueues s s2 := placed.trans (opDone_keepsQueues _ _ _ _ _)
  exact (showNotice_keepsQueues _ _ _ _).after
    ((stage_keepsQueues _).after ((emptyChannels_keepsQueues .blank s2).after told))

theorem loadEnds_keepsQueues (tag : Byte) (act : Nat) (finish : LoadEnd) (s : State) :
    KeepsQueues s (loadEnds tag act finish s) := by
  have failed : ∀ result data, KeepsQueues s (loadFails tag result data s) :=
    fun _ _ => (opDone_keepsQueues _ _ _ _ _).after id
  cases finish with
  | success region langs beat cues =>
    exact loadSucceeds_keepsQueues tag act region langs beat cues s
  | noAct => exact failed _ _
  | corrupt index => exact failed _ _
  | check => exact failed _ _
  | ecc a => exact failed _ _

theorem loadCompleted_keepsQueues (s : State) : KeepsQueues s (loadCompleted s) := by
  unfold loadCompleted
  split
  · exact finishReads_keepsQueues _ (fun failure t => loadEnds_keepsQueues _ _ _ t) s
  · exact .refl s

theorem takeReadEnd_keepsQueues (r : StagingRead) (failure : Option Nat) (text : TitleText) (s : State) :
    KeepsQueues s (takeReadEnd r failure text s) := by
  have delivered : ∀ result, KeepsQueues s (deliverAwaited r.key result s) := fun result => by
    unfold deliverAwaited
    split
    · exact .refl s
    · refine (KeepsQueues.forChannels (fun n t => ?_) _).after id
      split
      · exact deliver_keepsQueues _ _ n t
      · exact .refl t
  have kept : ∀ result, KeepsQueues s (keepResult r result (deliverAwaited r.key result s)) := fun result => by
    unfold keepResult
    split
    · exact (delivered result).trans (.staging _ _)
    · exact delivered result
  unfold takeReadEnd
  cases failure with
  | none => exact kept _
  | some a =>
    dsimp only
    split
    · exact (kept _).trans (notify_keepsQueues _ _)
    · exact kept _

theorem stagingReadEnded_keepsQueues (s : State) : KeepsQueues s (stagingReadEnded s) := by
  unfold stagingReadEnded
  split
  · split
    · extract_lets units s1 src s2
      have left : KeepsQueues s s1 := (readUnits_keepsQueues .staging _ s).trans (.store _ _)
      have ended : KeepsQueues s s2 := left.trans (.staging _ _)
      exact (stage_keepsQueues _).after ((takeReadEnd_keepsQueues _ _ _ _).after ended)
    · exact .refl s
  · exact .refl s

/-! ### Requests, by the block that answers (R164) -/

theorem refuse_keepsQueues (s : State) (result : Result) : KeepsQueues s (refuse s result).left := by
  rw [refuse_left]
  exact .refl s

/-- A refusal, or else a reply that keeps the queues. -/
theorem KeepsQueues.unlessRefused {s : State} {check : Prop} [Decidable check] {result : Result} {b : Reply}
    (hb : KeepsQueues s b.left) : KeepsQueues s (if check then refuse s result else b).left :=
  check_left (refuse_keepsQueues s result) hb

theorem KeepsQueues.answered {s t : State} {result : Result} {data : List Byte} (h : KeepsQueues s t) :
    KeepsQueues s (Reply.answer t result data).left := h

theorem doSetConfig_keepsQueues (pairs : List ConfigPair) (s : State) : KeepsQueues s (doSetConfig pairs s).left := by
  unfold doSetConfig
  refine .unlessRefused ?_
  split
  · exact .refl s
  · exact .unlessRefused (.unlessRefused (configTaken_keepsQueues pairs s))

theorem doCommitConfig_keepsQueues (s : State) : KeepsQueues s (doCommitConfig s).left := by
  unfold doCommitConfig
  split <;> exact id

theorem doStart_keepsQueues (tag force : Byte) (s : State) : KeepsQueues s (doStart tag force s).left :=
  .unlessRefused <| .unlessRefused <| check_left (a := .answer s .missing _) (KeepsQueues.refl s) <|
    enterRun_keepsQueues .preset .start (some tag) s

theorem doHold_keepsQueues (tag : Byte) (s : State) : KeepsQueues s (doHold tag s).left :=
  .unlessRefused <| (showNotice_keepsQueues .run .hold (some tag) (held s)).after id

theorem doSetPointer_keepsQueues (label : Label) (s : State) : KeepsQueues s (doSetPointer label s).left := by
  unfold doSetPointer
  refine .unlessRefused ?_
  split
  · exact refuse_keepsQueues s _
  · exact (flush_keepsQueues _).after ((placePointer_keepsQueues _ _).after (.firing s _))

theorem doShowMessage_keepsQueues (tag confirm level mask : Byte) (duration : BitVec 16) (text : List Byte) (s : State) :
    KeepsQueues s (doShowMessage tag confirm level mask duration text s).left := by
  unfold doShowMessage
  split
  · exact refuse_keepsQueues s _
  · refine .unlessRefused <| .unlessRefused <| .unlessRefused <| .unlessRefused ?_
    dsimp only [Reply.left]
    split
    · exact .refl s
    · exact placeMessage_keepsQueues _ _ _ _ _ s

theorem doClearMessage_keepsQueues (confirm level mask : Byte) (s : State) :
    KeepsQueues s (doClearMessage confirm level mask s).left := by
  unfold doClearMessage
  split
  · exact refuse_keepsQueues s _
  · exact .unlessRefused <| .unlessRefused <| (tellChannels_keepsQueues _ _ _).after id

theorem doProgramStore_keepsQueues (tag : Byte) (address : BitVec 32) (data : List Byte) (s : State) :
    KeepsQueues s (doProgramStore tag address data s).left := by
  have checked : KeepsQueues s (checkReads s) := readUnits_keepsQueues _ _ s
  exact .unlessRefused <| .unlessRefused <| checked.trans <| .unlessRefused <| .unlessRefused <| .store _ _

theorem doEraseSector_keepsQueues (tag : Byte) (sector : BitVec 16) (s : State) :
    KeepsQueues s (doEraseSector tag sector s).left := by
  have checked : KeepsQueues s (checkReads s) := readUnits_keepsQueues _ _ s
  exact .unlessRefused <| .unlessRefused <| checked.trans <| .unlessRefused <| .store _ _

theorem doCensus_keepsQueues (tag : Byte) (s : State) : KeepsQueues s (doCensus tag s).left :=
  .unlessRefused <| .unlessRefused <| (offerTool_keepsQueues _ _).after (.tools s _)

theorem doScreenTest_keepsQueues (tag channel : Byte) (count : BitVec 16) (length : Byte) (gap : BitVec 16)
    (mode : Byte) (s : State) : KeepsQueues s (doScreenTest tag channel count length gap mode s).left := by
  unfold doScreenTest
  split
  · exact check_left (.unlessRefused <| .unlessRefused <| (offerTool_keepsQueues _ _).after (.tools s _))
      (refuse_keepsQueues s _)
  · exact refuse_keepsQueues s _

theorem doStopTest_keepsQueues (s : State) : KeepsQueues s (doStopTest s).left := by
  unfold doStopTest
  split
  · exact endTest_keepsQueues _ _ s
  · exact .refl s

theorem doReadStatus_keepsQueues (s : State) : KeepsQueues s (doReadStatus s).left := by
  intro ⟨down, up, fifo, notices, channels⟩
  refine ⟨down, up, fifo, notices, fun n => ?_⟩
  have read : (statusRead s).channels[n] = s.channels[n].slipRead := Vector.getElem_map _ _
  change (statusRead s).channels[n].queue.length ≤ _
  rw [read]
  exact channels n

theorem replyOf_keepsQueues (h : Head) (r : Request) (s : State) : KeepsQueues s (replyOf h r s).left := by
  cases r with
  | identify | readConfig | readEcc | readCensus => exact .refl s
  | readCounters => exact id
  | clearEcc => exact .store s _
  | readStatus => exact doReadStatus_keepsQueues s
  | setConfig pairs => exact doSetConfig_keepsQueues pairs s
  | commitConfig => exact doCommitConfig_keepsQueues s
  | loadAct act => exact .unlessRefused <| .unlessRefused <| .unlessRefused <| .unlessRefused id
  | start force => exact doStart_keepsQueues h.tag force s
  | hold => exact doHold_keepsQueues h.tag s
  | resume => exact .unlessRefused (enterRun_keepsQueues .hold .resume (some h.tag) s)
  | stop => exact .unlessRefused (.answered (stopShow_keepsQueues h.tag s))
  | unload => exact .unlessRefused <| .unlessRefused <| .answered (unloadShow_keepsQueues h.tag s)
  | setPointer label => exact doSetPointer_keepsQueues label s
  | showMessage level mask duration text => exact doShowMessage_keepsQueues h.tag h.confirm level mask duration text s
  | clearMessage level mask => exact doClearMessage_keepsQueues h.confirm level mask s
  | readStore address length => exact .unlessRefused <| .unlessRefused <| .unlessRefused <| .store s _
  | programStore address data => exact doProgramStore_keepsQueues h.tag address data s
  | eraseSector sector => exact doEraseSector_keepsQueues h.tag sector s
  | verifyAct act => exact .unlessRefused <| .unlessRefused <| .store s _
  | checksum address length => exact .unlessRefused <| .unlessRefused <| .store s _
  | protectAct act => exact .unlessRefused <| .unlessRefused <| .unlessRefused <| .store s _
  | unprotectAct act => exact .unlessRefused <| .unlessRefused <| .unlessRefused <| .store s _
  | lockShow => exact .unlessRefused <| .store s _
  | census => exact doCensus_keepsQueues h.tag s
  | screenTest channel count length gap mode => exact doScreenTest_keepsQueues h.tag channel count length gap mode s
  | stopTest => exact doStopTest_keepsQueues s
  | restart => exact .unlessRefused id

/-! ### Handling of requests (R162, R163) -/

theorem respond_keepsQueues (g : Handling) (result : Result) (data : List Byte) (s : State) :
    KeepsQueues s (respond g result data s) :=
  (placeResponse_keepsQueues _ _).after
    ((KeepsQueues.management _ (Nat.le_refl _) (Nat.le_refl _)).after (offerHalves_keepsQueues s))

theorem handleRequest_keepsQueues (h : Head) (r : Request) (s : State) : KeepsQueues s (handleRequest h r s) := by
  have carried : ∀ g (reply : Reply), KeepsQueues reply.left (carryOut g reply) := fun g reply => by
    cases reply with
    | answer u result data => exact respond_keepsQueues g result data u
    | waiting u => exact .refl u
  exact (carried _ _).after ((replyOf_keepsQueues h r _).after id)

theorem handlePayload_keepsQueues (source : Byte) (payload : List Byte) (s : State) :
    KeepsQueues s (handlePayload source payload s) := by
  unfold handlePayload
  split
  · exact handleRequest_keepsQueues _ _ s
  · exact (respond_keepsQueues _ _ _ _).after id

/-- A request taken leaves the FIFO (R163). -/
theorem serve_keepsQueues (s : State) : KeepsQueues s (serve s) := by
  have loop : ∀ fuel s, KeepsQueues s (serveLoop fuel s) := by
    intro fuel
    induction fuel with
    | zero => exact .refl
    | succ fuel ih =>
      intro s
      unfold serveLoop
      split
      · exact .refl s
      · next q rest fifo =>
        have taken : KeepsQueues s (s.withManagement { s.management with fifo := rest }) :=
          .management s (fifo ▸ Nat.le_succ _) (Nat.le_refl _)
        split
        · exact (ih _).after ((handlePayload_keepsQueues _ _ _).after taken)
        · exact .refl s
  exact loop _ s

/-- A request joins the FIFO only where a place is free (R162). -/
theorem takeRequest_keepsQueues (source : Byte) (payload : List Byte) (s : State) :
    KeepsQueues s (takeRequest source payload s) := by
  have offered : KeepsQueues s (offerRequest source payload s) := by
    unfold offerRequest
    split
    · next place =>
      intro ⟨down, up, _, notices, channels⟩
      refine ⟨down, up, ?_, notices, channels⟩
      rw [withManagement_management, List.length_append]
      exact place
    · exact count_keepsQueues _ s
  exact offered.trans (serve_keepsQueues _)

theorem discardBad_keepsQueues (port : Port) (s : State) : KeepsQueues s (discardBad port s) := by
  cases port
  · exact count_keepsQueues .uCheck s
  · exact count_keepsQueues .dCheck s

theorem submit_keepsQueues (h : Head) (r : Request) (s : State) : KeepsQueues s (submit h r s) := by
  unfold submit
  split_ifs
  · exact discardBad_keepsQueues .u s
  · exact handleRequest_keepsQueues h r s
  · exact takeRequest_keepsQueues _ _ s

theorem submitPayload_keepsQueues (source : Byte) (payload : List Byte) (s : State) :
    KeepsQueues s (submitPayload source payload s) := by
  unfold submitPayload
  split_ifs
  · exact discardBad_keepsQueues .u s
  · exact handlePayload_keepsQueues _ _ s
  · exact takeRequest_keepsQueues _ _ s

theorem readStoreServed_keepsQueues (s : State) : KeepsQueues s (readStoreServed s) := by
  unfold readStoreServed
  split
  · split
    · exact (respond_keepsQueues _ _ _ _).after ((readUnits_keepsQueues _ _ s).trans (.store _ _))
    · exact .refl s
  · exact .refl s

/-! ### Frames and transmissions (R148 to R157) -/

/-- A forwarded frame joins its FIFO only where a place is free (R152). -/
theorem forwardDown_keepsQueues (f : Frame) (s : State) : KeepsQueues s (forwardDown f s) := by
  unfold forwardDown
  split
  · next place =>
    refine (chooseD_keepsQueues _).after fun ⟨_, rest⟩ => ⟨?_, rest⟩
    rw [withLink_link, List.length_append]
    exact place
  · exact count_keepsQueues _ s

theorem forwardUp_keepsQueues (f : Frame) (s : State) : KeepsQueues s (forwardUp f s) := by
  unfold forwardUp
  split
  · next place =>
    refine (chooseU_keepsQueues _).after fun ⟨down, _, rest⟩ => ⟨down, ?_, rest⟩
    rw [withLink_link, List.length_append]
    exact place
  · exact count_keepsQueues _ s

theorem takeFromDesk_keepsQueues (f : Frame) (s : State) : KeepsQueues s (takeFromDesk f s) := by
  unfold takeFromDesk
  split_ifs
  · exact takePos_keepsQueues _ _ s
  · exact takeGo_keepsQueues _ s
  · exact .refl s

theorem dispatchU_keepsQueues (f : Frame) (s : State) : KeepsQueues s (dispatchU f s) := by
  unfold dispatchU
  split_ifs
  · exact discardBad_keepsQueues .u s
  · exact takeFromDesk_keepsQueues f s
  · exact takeRequest_keepsQueues _ _ s
  · exact count_keepsQueues _ s
  · exact (forwardDown_keepsQueues f s).trans (takeFromDesk_keepsQueues f _)
  · exact forwardDown_keepsQueues f s

theorem dispatchD_keepsQueues (f : Frame) (s : State) : KeepsQueues s (dispatchD f s) := by
  unfold dispatchD
  split_ifs
  · exact discardBad_keepsQueues .d s
  · exact takeAnswer_keepsQueues _ _ s
  · exact takeEcho_keepsQueues _ s
  · exact count_keepsQueues _ s
  · exact forwardUp_keepsQueues f s

theorem dispatch_keepsQueues (port : Port) (f : Frame) (s : State) : KeepsQueues s (dispatch port f s) := by
  cases port
  · exact dispatchU_keepsQueues f s
  · exact dispatchD_keepsQueues f s

theorem receive_keepsQueues (port : Port) (bytes : List Byte) (s : State) : KeepsQueues s (receive port bytes s) := by
  unfold receive
  split
  · exact dispatch_keepsQueues port _ s
  · exact discardBad_keepsQueues port s

theorem dSent_keepsQueues (s : State) : KeepsQueues s (dSent s) := by
  have told : ∀ t u, KeepsQueues u (toolSent t u) := fun t u => by
    unfold toolSent
    split
    · exact testFrameSent_keepsQueues u
    · exact .refl u
  unfold dSent
  split
  · exact chooseD_keepsQueues s
  · exact (chooseD_keepsQueues _).after ((told _ _).after (.link s (Nat.le_refl _) (Nat.le_refl _)))

theorem uSent_keepsQueues (s : State) : KeepsQueues s (uSent s) := by
  have told : ∀ u, KeepsQueues u (restartSent u) := fun u => by
    unfold restartSent
    split <;> exact id
  unfold uSent
  split
  · exact (serve_keepsQueues _).after (chooseU_keepsQueues s)
  · exact (serve_keepsQueues _).after
      ((chooseU_keepsQueues _).after ((told _).after (.link s (Nat.le_refl _) (Nat.le_refl _))))

/-! ### Commands and steps -/

/-- A command with a moment keeps the queues when its effect does (R114, R170). -/
theorem during_keepsQueues (m : Moment) {effect : State → State} (h : ∀ s, KeepsQueues s (effect s)) {s t : State}
    (ht : during m s effect = .next t) : KeepsQueues s t := by
  obtain rfl := Host.Outcome.next.inj ht
  split
  · exact (offerHalves_keepsQueues _).after ((h _).after (atMoment_keepsQueues m s))
  · exact .refl s

theorem exec_keepsQueues (c : Instr) {s t : State} (ht : exec c s = .next t) : KeepsQueues s t := by
  cases c with
  | powerUp straps cut =>
    obtain rfl := Host.Outcome.next.inj ht
    exact fun _ => poweredUp_queuesSound straps (cutCells cut s.store) (cutProtection cut s.store)
  | powerFail cut =>
    obtain rfl := Host.Outcome.next.inj ht
    split
    · exact fun _ => poweredUp_queuesSound s.straps (cutCells cut s.store) (cutProtection cut s.store)
    · exact .refl s
  | restartTakesEffect =>
    obtain rfl := Host.Outcome.next.inj ht
    split
    · exact restartEffect_keepsQueues s
    · exact .refl s
  | badFrame m port bytes => exact during_keepsQueues m (receive_keepsQueues port bytes) ht
  | foreignKindFrame m port _ _ _ _ _ => exact during_keepsQueues m (dispatch_keepsQueues port _) ht
  | pos m _ _ _ _ | go m _ _ _ _ | req m _ _ _ _ | forwardDown m _ _ _ _ _ =>
    exact during_keepsQueues m (dispatchU_keepsQueues _) ht
  | forwardUp m _ _ _ _ _ | answer m _ _ _ _ | testEcho m _ _ _ _ =>
    exact during_keepsQueues m (dispatchD_keepsQueues _) ht
  | dTransmissionComplete m => exact during_keepsQueues m dSent_keepsQueues ht
  | uTransmissionComplete m => exact during_keepsQueues m uSent_keepsQueues ht
  | invalidRequest m source payload => exact during_keepsQueues m (submitPayload_keepsQueues source payload) ht
  | readStoreServed m =>
    exact during_keepsQueues m (fun u => (readStoreServed_keepsQueues u).trans (serve_keepsQueues _)) ht
  | programComplete m => exact during_keepsQueues m programCompleted_keepsQueues ht
  | eraseComplete m => exact during_keepsQueues m eraseCompleted_keepsQueues ht
  | verifyComplete m => exact during_keepsQueues m verifyCompleted_keepsQueues ht
  | checksumComplete m => exact during_keepsQueues m checksumCompleted_keepsQueues ht
  | protectionUpdateComplete m => exact during_keepsQueues m protectionCompleted_keepsQueues ht
  | loadComplete m => exact during_keepsQueues m loadCompleted_keepsQueues ht
  | censusWindowExpiry m => exact during_keepsQueues m censusExpired_keepsQueues ht
  | testGapExpiry m => exact during_keepsQueues m testGapExpired_keepsQueues ht
  | testCompletion m => exact during_keepsQueues m testCompleted_keepsQueues ht
  | silenceDeadlineExpiry m => exact during_keepsQueues m silenceExpiry_keepsQueues ht
  | horizonDeadlineExpiry m => exact during_keepsQueues m horizonExpiry_keepsQueues ht
  | markDeadlineExpiry m => exact during_keepsQueues m markExpired_keepsQueues ht
  | followDeadlineExpiry m => exact during_keepsQueues m followExpired_keepsQueues ht
  | watchDeadlineExpiry m => exact during_keepsQueues m watchExpired_keepsQueues ht
  | readingDeadlineExpiry m n => exact during_keepsQueues m (readingExpired_keepsQueues n) ht
  | gapDeadlineExpiry m n => exact during_keepsQueues m (gapExpired_keepsQueues n) ht
  | messageExpiry m placement => exact during_keepsQueues m (messageExpired_keepsQueues placement) ht
  | stagingReadEnd m => exact during_keepsQueues m stagingReadEnded_keepsQueues ht
  | identify m h | readStatus m h | readCounters m h | readConfig m h | setConfig m h _ | commitConfig m h
  | loadAct m h _ | start m h _ | hold m h | resume m h | stop m h | unload m h | restart m h | setPointer m h _
  | showMessage m h _ _ _ _ | clearMessage m h _ _ | readStore m h _ _ | programStore m h _ _ | eraseSector m h _
  | verifyAct m h _ | checksum m h _ _ | protectAct m h _ | unprotectAct m h _ | lockShow m h | readEcc m h
  | clearEcc m h | census m h | readCensus m h | screenTest m h _ _ _ _ _ | stopTest m h =>
    exact during_keepsQueues m (submit_keepsQueues h _) ht

end Sys2Proof.Machine

namespace Sys2Proof.Proofs

open Sys2Proof.Machine

/-- Settles O58: an idle step moves only the clock, and a command keeps the queues by `exec_keepsQueues`. -/
theorem queuesStayBounded : Obligations.QueuesStayBounded := by
  intro s t hs hstep
  cases hp : s.pending with
  | nil =>
    rw [step_of_pending_nil hp] at hstep
    obtain rfl := Host.Outcome.next.inj hstep
    unfold tick
    split <;> exact hs
  | cons c rest =>
    have run : exec c (s.withPending rest) = .next t := by
      rw [← hstep, step, hp]
    exact exec_keepsQueues c run hs

end Sys2Proof.Proofs
end

section
/-! Folding (R92): a text sent to a channel with fewer lines keeps its length and its first line breaks. -/

namespace Sys2Proof.Machine

theorem fold_length (keep : Nat) (bytes : List Byte) : (fold keep bytes).length = bytes.length := by
  induction bytes generalizing keep with
  | nil => simp only [fold, List.length_nil]
  | cons b rest ih =>
    by_cases hb : b = 0x0A
    · cases keep with
      | zero => simp only [fold, if_pos hb, List.length_cons, ih]
      | succ k => simp only [fold, if_pos hb, List.length_cons, ih]
    · simp only [fold, if_neg hb, List.length_cons, ih]

theorem lineBreaks_break (rest : List Byte) : lineBreaks (0x0A :: rest) = lineBreaks rest + 1 :=
  List.countP_cons_of_pos (by decide)

theorem lineBreaks_other {b : Byte} (h : b ≠ 0x0A) (rest : List Byte) : lineBreaks (b :: rest) = lineBreaks rest :=
  List.countP_cons_of_neg (by simpa using h)

/-- Folding keeps the first breaks and turns every later one into a space. -/
theorem lineBreaks_fold (keep : Nat) (bytes : List Byte) : lineBreaks (fold keep bytes) = min keep (lineBreaks bytes) := by
  induction bytes generalizing keep with
  | nil =>
    simp only [fold]
    exact (Nat.min_zero keep).symm
  | cons b rest ih =>
    by_cases hb : b = 0x0A
    · subst hb
      rw [lineBreaks_break]
      cases keep with
      | zero => rw [fold, if_pos rfl, lineBreaks_other (by decide), ih, Nat.zero_min, Nat.zero_min]
      | succ k => rw [fold, if_pos rfl, lineBreaks_break, ih, Nat.add_min_add_right]
    · simp only [fold, if_neg hb, lineBreaks_other hb, ih]

end Sys2Proof.Machine

namespace Sys2Proof.Proofs

open Sys2Proof.Machine

/-- Settles O24: a text of more lines than the channel has is folded to that many, and any other is sent as it is. -/
theorem foldedTextFitsTheLines : Obligations.FoldedTextFitsTheLines := by
  intro lines bytes hlines
  by_cases h : lines < lineBreaks bytes + 1
  · simp only [folded, if_pos h]
    refine ⟨fold_length _ _, ?_, (Nat.min_eq_left h.le).symm⟩
    rw [lineBreaks_fold]
    omega
  · simp only [folded, if_neg h]
    exact ⟨trivial, trivial, (Nat.min_eq_right (Nat.le_of_not_lt h)).symm⟩

end Sys2Proof.Proofs
end

section
/-! UNLOAD (R140): the blocks it empties and resets, and the answer that follows. -/

namespace Sys2Proof.Machine

/-- The loaded region replaced on both sides of a width. -/
theorem FiresOnly.withRegion {s t : State} (h : FiresOnly s t) (region : Option Region) :
    FiresOnly (s.withStore { s.store with region := region }) (t.withStore { t.store with region := region }) := by
  obtain ⟨queue, suspended, hstore⟩ := h.store
  refine ⟨h.outside, h.score, h.placements, h.control, ⟨queue, suspended, ?_⟩, h.requests, h.tools, h.grows⟩
  rw [withStore_store, hstore]
  rfl

/-- The table emptied, the messages of levels 1 and 2 gone and no region loaded (R29, R108, R129). -/
def bare (s : State) : State :=
  ((s.withTable CueTable.empty).withPlacements (s.placements.filter (fun p => p.level = .alert))).withStore
    { s.store with region := none }

/-- The blocks emptied on both sides of a width, with firing unit and staging set. -/
theorem FiresOnly.bare {s t : State} (h : FiresOnly s t) (f : Firing) (g : Staging) :
    FiresOnly (Machine.bare s) (((Machine.bare t).withFiring f).withStaging g) := by
  have emptied : FiresOnly (Machine.bare s) (Machine.bare t) := by
    obtain ⟨queue, suspended, hstore⟩ := (h.withRegion none).store
    refine ⟨h.outside, ⟨h.score.1, rfl⟩, ?_, h.control, ⟨queue, suspended, hstore⟩, h.requests, h.tools, h.grows⟩
    exact congrArg (List.filter _) h.placements
  exact (emptied.trans (FiresOnly.firings _ f)).trans (FiresOnly.stagings _ g)

/-- The engine with the blocks at the values that UNLOAD gives them, firing unit, staging and channels apart (R5, R29,
R108, R129, R140). -/
def unloaded (s : State) : State :=
  bare ((s.withControl { s.control with show_ := .dark, act := none }).withTracker
    (s.tracker.resetTo s.tracker.beat s.clock))

/-- What UNLOAD makes of the blocks: those of `unloaded` are set, firing unit and staging reset, the channels emptied,
and the rest keeps to a fire's width. -/
theorem unloadShow_blocks (tag : Byte) (s : State) :
    let t := unloadShow tag s
    FiresOnly (unloaded s) t ∧ t.firing = Firing.initial ∧ t.staging.entries = [] ∧ t.staging.awaited = [] ∧
      t.counters = s.counters ∧
      ∀ n : Fin 8, (s.config.channels[n].enabled = true → ClearedTo .off s.channels[n] t.channels[n]) ∧
        (s.config.channels[n].enabled = false → t.channels[n] = s.channels[n]) := by
  unfold unloadShow
  extract_lets previous src₁ s1 s2 src₂ s3 s4 s5 src₃ s6 t
  have reset : PortUOnly ((s.withControl { s.control with show_ := .dark, act := none }).withTracker
      (s.tracker.resetTo s.tracker.beat s.clock)) s1 := resetTracker_only s.tracker.beat (s.withControl _)
  clear_value s1
  have emptied : CaptionsOnly s4 s5 := emptyChannels_only .off s4
  have counters : s5.counters = s4.counters := emptyChannels_counters .off s4
  have channels : ∀ n : Fin 8,
      (s4.config.channels[n].enabled = true → ClearedTo .off s4.channels[n] s5.channels[n]) ∧
        (s4.config.channels[n].enabled = false → s5.channels[n] = s4.channels[n]) :=
    fun n => emptyChannels_channels .off n s4
  clear_value s5
  have said : PortUOnly s6 t := showNotice_only _ _ _ s6
  clear_value t
  have width : FiresOnly (unloaded s) (s4.withStore { s4.store with region := none }) :=
    reset.toFiresOnly.bare Firing.initial { s2.staging.flushed with awaited := [] }
  have hconfig : s4.config = s.config := by
    obtain ⟨-, -, -, hconfig, -, -⟩ := reset.outside
    exact hconfig
  have hchannels : s4.channels = s.channels := reset.channels
  refine ⟨(width.trans (emptied.toFiresOnly.withRegion none)).trans said.toFiresOnly, ?_, ?_, ?_, ?_, fun n => ?_⟩
  · exact said.firing.trans emptied.firing
  · rw [said.staging]
    exact emptied.entries
  · rw [said.staging]
    exact congrArg Staging.awaited emptied.staging
  · exact said.counters.trans (counters.trans reset.counters)
  · rw [said.channels, ← hconfig, ← hchannels]
    exact channels n

theorem doUnload_of_confirmed {tag confirm : Byte} {s : State} (hc : confirm = 0xEA) (hshow : s.control.show_ ≠ .dark) :
    doUnload tag confirm s = .answer (unloadShow tag s) .ok [] := by
  rw [doUnload, if_neg (not_not.2 (hc.trans (by decide))), if_neg hshow]

end Sys2Proof.Machine

namespace Sys2Proof.Proofs

open Sys2Proof.Machine

/-- Settles O47: UNLOAD's effect on the blocks, which its answer leaves alone. -/
theorem unloadReturnsToDark : Obligations.UnloadReturnsToDark := by
  intro m h s₀ s hs hconfirm hshow
  have reply : replyOf h .unload (inHand h .unload s) = .answer (unloadShow h.tag (inHand h .unload s)) .ok [] :=
    doUnload_of_confirmed hconfirm hshow
  obtain ⟨hrun, hanswered⟩ := request_answered h .unload _ _ _ hs (requestPayload_fits rfl _ _) reply
  obtain ⟨width, hfiring, hentries, hawaited, hcounters, hchannels⟩ := unloadShow_blocks h.tag (inHand h .unload s)
  have only := FiresOnly.answered (s := unloaded s) width hs.handling .ok []
  obtain ⟨bfiring, bstaging, bchannels, bcounters⟩ :=
    respond_beside (handlingOf h (requestCode .unload)) .ok [] (unloadShow h.tag (inHand h .unload s))
  obtain ⟨hprotection, hflight, hregion, hlock, hcells⟩ := only.storeKept
  obtain ⟨htracker, htable⟩ := only.score
  refine ⟨_, hrun, hanswered, ?_, ?_, ?_, ?_, ?_, ?_, htable, bfiring.trans hfiring, ?_, ?_, only.placements,
    fun n he => ?_, fun n he => ?_, only.outside, only.requests, bcounters.trans hcounters, hregion, hlock, hprotection,
    hflight, hcells⟩
  · rw [only.control]; rfl
  · rw [only.control]; rfl
  · rw [htracker]; rfl
  · rw [htracker]; rfl
  · rw [htracker]; rfl
  · rw [htracker]; rfl
  · rw [bstaging, hentries]
  · rw [bstaging, hawaited]
  · rw [bchannels]
    exact (hchannels n).1 he
  · rw [bchannels]
    exact (hchannels n).2 he

end Sys2Proof.Proofs
end

section
/-! What a change of one channel's title layer writes (R83, R84, R89, R90, R91): the caption of its new content, and what
the slip and the COUNTER_HALF notices that follow leave of it. -/

namespace Sys2Proof.Machine

section written
variable {n : Fin 8} {content : Content} {s t u : State}

/-! ### Captions in a chain of operations -/

theorem NotWritten.refl (n : Fin 8) (s : State) : NotWritten n s s := ⟨rfl, rfl, .refl s⟩

theorem NotWritten.trans (h : NotWritten n s t) (k : NotWritten n t u) : NotWritten n s u :=
  ⟨k.1.trans h.1, k.2.1.trans h.2.1, h.2.2.trans k.2.2⟩

/-- A caption written stays written while nothing more is. -/
theorem Written.trans (h : Written n content s t) (k : NotWritten n t u) : Written n content s u := by
  obtain ⟨stored, silent, sent⟩ := h
  obtain ⟨hcontent, hnumber, hport⟩ := k
  obtain ⟨-, hslots, -, -, -, -, -, hcoalesced, -⟩ := id hport
  refine ⟨hcontent.trans stored, fun quiet => ?_, fun unmuted free => ?_⟩
  · obtain ⟨number, port⟩ := silent quiet
    exact ⟨hnumber.trans number, port.trans hport⟩
  · obtain ⟨number, slot⟩ := sent unmuted free
    refine ⟨hnumber.trans number, fun busy => ?_⟩
    rw [hslots, hcoalesced]
    exact slot busy

/-- Counting and notices write no caption. -/
theorem NoticesOnly.notWritten (h : NoticesOnly s t) (n : Fin 8) : NotWritten n s t := by
  rw [NotWritten, h.channels]
  exact ⟨rfl, rfl, h.portD⟩

/-- A channel replaced by one with the same content and number. -/
theorem NotWritten.channel {x : Channel} (hc : x.content = s.channels[n].content)
    (hn : x.number = s.channels[n].number) : NotWritten n s (s.withChannel n x) := by
  rw [NotWritten, withChannel_self]
  exact ⟨hc, hn, .refl s⟩

/-- What is written from a channel replaced by one with the same number is written from the channel as it was. -/
theorem Written.since {x : Channel} (hn : x.number = s.channels[n].number)
    (h : Written n content (s.withChannel n x) t) : Written n content s t := by
  unfold Written at h
  rw [withChannel_self, hn] at h
  exact h

end written

/-! ### A channel composed afresh after its title layer has changed (R90, R91) -/

section composed
variable {n : Fin 8} {why : Arrived} {x : Channel} {s : State} (hc : x.content = s.channels[n].content)
include hc

/-- With the title layer on top, a change of content is stored, and written unless muted or under a test. -/
theorem recompose_onTop (hn : x.number = s.channels[n].number) (h : OnTop s n)
    (changes : contentChanges s.channels[n].content (titleContent x) why = true) :
    Written n (titleContent x) s (recompose n why (s.withChannel n x)) := by
  have top : OnTop (s.withChannel n x) n := h
  have new : contentOf (s.withChannel n x) n = titleContent x := by rw [contentOf_onTop top, withChannel_self]
  have written := recompose_written (n := n) (why := why) (s := s.withChannel n x) h.1
    (by rw [new, withChannel_self, hc]; exact changes)
  rw [new] at written
  exact written.since hn

/-- With the title layer on top, a content that stays writes nothing. -/
theorem recompose_unchanged (h : OnTop s n)
    (same : contentChanges s.channels[n].content (titleContent x) why = false) :
    recompose n why (s.withChannel n x) = s.withChannel n x := by
  have top : OnTop (s.withChannel n x) n := h
  refine recompose_same ?_
  rw [contentOf_onTop top, withChannel_self, hc]
  exact same

/-- Beneath a message, or disabled, a change of the title layer writes nothing. -/
theorem recompose_beneath (h : Beneath s n) (hw : why = .nothing ∨ why = .title) :
    recompose n why (s.withChannel n x) = s.withChannel n x := by
  refine recompose_same (beneath_unchanged ?_ hw)
  unfold Beneath at h ⊢
  rw [withChannel_self, hc]
  exact h

/-- A title layer that goes over to BLANK writes it in place of a title, and nothing in place of BLANK or beneath. -/
theorem recompose_blanks (hn : x.number = s.channels[n].number) (hx : titleContent x = .blank) :
    let t := recompose n .nothing (s.withChannel n x)
    (OnTop s n → s.channels[n].content.isTitle = true → Written n .blank s t) ∧
      (OnTop s n → s.channels[n].content = .blank → NotWritten n s t) ∧ (Beneath s n → NotWritten n s t) := by
  refine ⟨fun top title => ?_, fun top blank => ?_, fun beneath => ?_⟩
  · rw [← hx]
    refine recompose_onTop hc hn top ?_
    rw [hx]
    cases old : s.channels[n].content with
    | title => rfl
    | dark | blank | message => rw [old] at title; cases title
  · rw [recompose_unchanged hc top (by rw [hx, blank]; rfl)]
    exact .channel hc hn
  · rw [recompose_beneath hc beneath (.inl rfl)]
    exact .channel hc hn

end composed

/-! ### An item taking effect (R88, R89) -/

section effect
variable {n : Fin 8} {i : Item} {s : State}

/-- The slip maximum is raised to the item's slip, and nothing is written. -/
theorem takeEffect_measured :
    (takeEffect n i s).channels[n] =
        { s.channels[n] with slipMax := max s.channels[n].slipMax (slipOf i s.clock) } ∧
      NotWritten n s (takeEffect n i s) := by
  unfold takeEffect
  extract_lets slip s1 src s2
  have told : NoticesOnly s s1 := by
    unfold s1
    split
    · exact (notify_only _ s).toNoticesOnly
    · exact .refl s
  have measured : s2.channels[n] = { s.channels[n] with slipMax := max s.channels[n].slipMax slip } := by
    rw [← told.channels]
    exact withChannel_self s1 n _
  have unwritten : NotWritten n s s2 := (told.notWritten n).trans (.channel rfl rfl)
  split
  · have counted := count_only .textLate s2
    exact ⟨(congrArg (fun v : Vector Channel 8 => v[n]) counted.channels).trans measured,
      unwritten.trans (counted.notWritten n)⟩
  · exact ⟨measured, unwritten⟩

end effect

/-! ### A title shown (R78, R83, R89) -/

/-- The content of a title item (R83, R90). -/
def Item.content (i : Item) : Content :=
  .title i.label ((i.text.map (·.bytes)).getD []) ((i.text.map (·.lines)).getD 1)

/-- A channel that shows a title calls for the title's content. -/
theorem titleContent_shows (x : Channel) (l : LanguageConfig) (i : Item) (now : Time) :
    titleContent (x.shows l i now) = i.content := rfl

/-- The reading deadline of a title just shown, by the minimum as it applies (R78). -/
theorem shows_reading (x : Channel) (l : LanguageConfig) (i : Item) (now : Time) :
    (x.shows l i now).reading = some (later now (1000 *
      (if x.queue = [] then minimumReading l ((i.text.map (·.chars)).getD 0)
        else (minimumReading l ((i.text.map (·.chars)).getD 0) * l.catchUp + 99) / 100))) := by
  cases queue : x.queue with
  | nil => simp only [Channel.shows, queue, appliedMinimum, List.isEmpty_nil, if_true]
  | cons j rest =>
    simp only [Channel.shows, queue, appliedMinimum, List.isEmpty_cons, Bool.false_eq_true, if_false, caughtUp_eq,
      reduceCtorEq]

section shown
variable {n : Fin 8} {i : Item} {x : Channel} {s : State}

/-- What showing a title makes of its channel, and the caption it writes. -/
theorem showTitle_shows (hc : x.content = s.channels[n].content) (hn : x.number = s.channels[n].number) :
    let t := showTitle n i (s.withChannel n x)
    (∃ content number, t.channels[n] = { x.shows (s.languageOf n) i s.clock with
        content := content, number := number, slipMax := max x.slipMax (slipOf i s.clock) }) ∧
      (OnTop s n → Written n i.content s t) ∧ (Beneath s n → NotWritten n s t) := by
  intro t
  have whole : t = takeEffect n i
      (recompose n .title (s.withChannel n (x.shows (s.languageOf n) i s.clock))) := by
    unfold t showTitle
    rw [withChannel_self, withChannel_withChannel]
    rfl
  obtain ⟨measured, unwritten⟩ := takeEffect_measured (n := n) (i := i)
    (s := recompose n .title (s.withChannel n (x.shows (s.languageOf n) i s.clock)))
  rw [← whole] at measured unwritten
  refine ⟨?_, fun top => ?_, fun beneath => ?_⟩
  · obtain ⟨content, number, composed⟩ :=
      recompose_channels n .title (s.withChannel n (x.shows (s.languageOf n) i s.clock))
    obtain ⟨-, -, -, -, hclock, -⟩ := (recompose_only n .title
      (s.withChannel n (x.shows (s.languageOf n) i s.clock))).outside
    rw [withChannel_self] at composed
    refine ⟨content, number, ?_⟩
    rw [measured, hclock, composed]
    simp only [Fin.getElem_fin, Vector.getElem_set_self]
    rfl
  · refine (recompose_onTop (x := x.shows (s.languageOf n) i s.clock) hc hn top ?_).trans unwritten
    rw [titleContent_shows]
    exact Bool.or_true _
  · rw [recompose_beneath (x := x.shows (s.languageOf n) i s.clock) hc beneath (.inr rfl)] at unwritten
    exact (NotWritten.channel (x := x.shows (s.languageOf n) i s.clock) hc hn).trans unwritten

end shown

end Sys2Proof.Machine
end

section
/-! The gap deadline as a command (R84). -/

namespace Sys2Proof.Machine

/-- A passed gap deadline shows the next item. -/
theorem gapExpired_shows {n : Fin 8} {i : Item} {d : Time} {s : State} (hl : s.channels[n].layer = .gap)
    (hi : s.channels[n].next = some i) (hg : s.channels[n].gap = some d) (hd : due d s.clock = true) :
    gapExpired n s = showTitle n i (s.withChannel n { s.channels[n] with next := none, gap := none }) := by
  simp only [gapExpired, hl, hi, hg, isDue, hd, if_true]

/-- COUNTER_HALF notices offered keep to one channel's width. -/
theorem offerHalves_channel (n : Fin 8) (s : State) : (offerHalves s).channels[n] = s.channels[n] := by
  rw [(offerHalves_only s).channels]

end Sys2Proof.Machine

namespace Sys2Proof.Proofs

open Sys2Proof.Machine

/-- Settles O23: the next title is shown in its channel alone, and the notices offered last write nothing. -/
theorem gapExpiryShowsTheNextTitle : Obligations.GapExpiryShowsTheNextTitle := by
  intro m n i d s₀ s hs hlayer hnext hgap hdue l full
  have shown := gapExpired_shows hlayer hnext hgap hdue
  have apart : ChannelOnly n s (gapExpired n s) := by
    rw [shown]
    exact (ChannelOnly.channel s n _).trans (showTitle_channelOnly n i _)
  obtain ⟨⟨content, number, channel⟩, onTop, beneath⟩ := showTitle_shows (n := n) (i := i)
    (x := { s.channels[n] with next := none, gap := none }) (s := s) rfl rfl
  rw [← shown] at channel onTop beneath
  have offered := offerHalves_only (gapExpired n s)
  have only := apart.toCaptionsOnly.trans offered.toCaptionsOnly
  have last := offered.notWritten n
  rw [← offerHalves_channel] at channel
  refine ⟨_, during_awake _ hs, ?_, ?_, ?_, ?_, ?_, ?_, ?_, ?_, ?_, fun top => (onTop top).trans last,
    fun under => (beneath under).trans last, fun k hk => ?_, only.outside, only.score, ⟨only.staging, only.firing⟩,
    only.placements, only.stores, only.control, only.requests⟩
  · rw [channel]; rfl
  · rw [channel]; rfl
  · rw [channel]; rfl
  · rw [channel]; rfl
  · rw [channel]; rfl
  · rw [channel]; rfl
  · rw [channel]
    exact shows_reading _ _ _ _
  · rw [channel]; rfl
  · rw [channel]; rfl
  · exact (offerHalves_channel k _).trans (apart.others k hk)

end Sys2Proof.Proofs
end

section
/-! A release begun past the reading deadline (R82, R85): a channel that holds no reading deadline any more releases the
head of its queue at once, so each head has one effect. -/

namespace Sys2Proof.Machine

section heads
variable {n : Fin 8} {x : Channel} {i : Item} {rest : List Item} {s : State}

/-! ### The effect of each head, by its kind and the channel's layer (R82) -/

/-- A head that awaits its text is marked late and keeps its place. -/
theorem release_of_awaiting (hl : x.layer = .blank ∨ x.layer = .settled) (hd : x.reading = none)
    (hq : x.queue = i :: rest) (ha : i.awaiting = true) :
    release n (s.withChannel n x) = s.withChannel n { x with queue := { i with late := true } :: rest } := by
  rw [release, withChannel_self, if_pos hl, releaseLoop]
  simp only [withChannel_self, hq, hd, ha, isAhead, Bool.false_eq_true, and_false, if_false, if_true,
    withChannel_withChannel]

/-- A title with its text is shown at once where no gap comes between. -/
theorem release_of_title (hl : x.layer = .blank ∨ x.layer = .settled) (hd : x.reading = none)
    (hq : x.queue = i :: rest) (hk : i.kind = .title) (ha : i.awaiting = false)
    (hg : x.layer = .blank ∨ (s.languageOf n).gap = 0) :
    release n (s.withChannel n x) = showTitle n i (s.withChannel n { x with queue := rest }) := by
  have now : x.layer = .blank ∨ ((s.withChannel n x).languageOf n).gap = 0 := hg
  rw [release, withChannel_self, if_pos hl, releaseLoop]
  simp only [withChannel_self, hq, hd, hk, ha, now, isAhead, Bool.false_eq_true, and_false, if_false, if_true,
    withChannel_withChannel]

/-- A channel that has put its head off to the end of the gap. -/
def Channel.gapBefore (x : Channel) (i : Item) (rest : List Item) (gap : Nat) (now : Time) : Channel :=
  { ({ x with queue := rest } : Channel).clears .gap with next := some i, gap := some (later now (1000 * gap)) }

/-- A title with its text that follows a title waits out the gap. -/
theorem release_of_gap (hl : x.layer = .settled) (hq : x.queue = i :: rest)
    (hk : i.kind = .title) (ha : i.awaiting = false) (hg : (s.languageOf n).gap ≠ 0) :
    release n (s.withChannel n x) =
      recompose n .nothing (s.withChannel n (x.gapBefore i rest (s.languageOf n).gap s.clock)) := by
  have waits : ((s.withChannel n x).languageOf n).gap ≠ 0 := hg
  have settled : x.layer ≠ .blank := by
    rw [hl]
    decide
  rw [release, withChannel_self, if_pos (.inr hl), releaseLoop]
  simp only [withChannel_self, hq, hk, ha, waits, settled, false_and, false_or, Bool.false_eq_true, if_false,
    withChannel_withChannel]
  rfl

/-- A BLANK item with nothing behind it is taken, and the release ends. -/
theorem release_of_blank (hl : x.layer = .blank ∨ x.layer = .settled) (hd : x.reading = none)
    (hq : x.queue = [i]) (hk : i.kind = .blank) :
    release n (s.withChannel n x) = takeBlank n i (s.withChannel n { x with queue := [] }) := by
  have ha : i.awaiting = false := by simp [Item.awaiting, hk]
  have emptied := (takeBlank_channel n i (s.withChannel n { x with queue := [] })).2.2
  rw [withChannel_self] at emptied
  rw [release, withChannel_self, if_pos hl, releaseLoop]
  simp only [withChannel_self, hq, hd, hk, ha, isAhead, Bool.false_eq_true, and_false, if_false,
    withChannel_withChannel]
  rw [hd] at emptied
  exact releaseLoop_of_empty emptied

end heads

/-! ### A BLANK item taken (R81, R82, R89) -/

section taken
variable {n : Fin 8} {i : Item} {x : Channel} {s : State}

/-- What taking a BLANK item makes of its channel, and the BLANK it writes in place of a title. -/
theorem takeBlank_taken (hc : x.content = s.channels[n].content) (hn : x.number = s.channels[n].number) :
    let t := takeBlank n i (s.withChannel n x)
    (∃ content number slipMax, t.channels[n] = { x.clears .blank with
        content := content, number := number, slipMax := slipMax }) ∧
      (OnTop s n → s.channels[n].content.isTitle = true → Written n .blank s t) ∧
      (OnTop s n → s.channels[n].content = .blank → NotWritten n s t) ∧ (Beneath s n → NotWritten n s t) := by
  intro t
  have whole : t = takeEffect n i (recompose n .nothing (s.withChannel n (x.clears .blank))) := by
    unfold t takeBlank
    rw [withChannel_self, withChannel_withChannel]
  have unwritten := (takeEffect_measured (n := n) (i := i)
    (s := recompose n .nothing (s.withChannel n (x.clears .blank)))).2
  rw [← whole] at unwritten
  obtain ⟨title, blank, beneath⟩ := recompose_blanks (x := x.clears .blank) hc hn rfl
  refine ⟨?_, fun top old => (title top old).trans unwritten, fun top old => (blank top old).trans unwritten,
    fun under => (beneath under).trans unwritten⟩
  rw [whole]
  exact takeEffect_recompose_channel n .nothing i (x.clears .blank) s

end taken

/-! ### The gap before a title (R83) -/

/-- What putting a title off to the end of the gap makes of its channel, and the BLANK it writes in place of a title. -/
theorem gapBefore_begun {n : Fin 8} {x : Channel} {s : State} (i : Item) (rest : List Item) (gap : Nat)
    (hc : x.content = s.channels[n].content) (hn : x.number = s.channels[n].number) :
    let t := recompose n .nothing (s.withChannel n (x.gapBefore i rest gap s.clock))
    (∃ content number, t.channels[n] =
        { x.gapBefore i rest gap s.clock with content := content, number := number }) ∧
      (OnTop s n → s.channels[n].content.isTitle = true → Written n .blank s t) ∧
      (OnTop s n → s.channels[n].content = .blank → NotWritten n s t) ∧ (Beneath s n → NotWritten n s t) := by
  refine ⟨?_, recompose_blanks (x := x.gapBefore i rest gap s.clock) hc hn rfl⟩
  obtain ⟨content, number, composed⟩ :=
    recompose_channels n .nothing (s.withChannel n (x.gapBefore i rest gap s.clock))
  rw [withChannel_self] at composed
  refine ⟨content, number, ?_⟩
  rw [composed]
  exact Vector.getElem_set_self _

end Sys2Proof.Machine
end

section
/-! The reading deadline as a command (R85). -/

namespace Sys2Proof.Machine

/-- A channel whose reading deadline has passed: disarmed, and a title shown has been read. -/
def Channel.readingEnded (c : Channel) : Channel :=
  { c with layer := if c.layer = .showing then .settled else c.layer, reading := none }

section expiry
variable {n : Fin 8} {d : Time} {s : State} (hr : s.channels[n].reading = some d) (hd : due d s.clock = true)
include hr hd

/-- With a title shown or in BLANK the passed deadline begins a release. -/
theorem readingExpired_releases (hl : s.channels[n].layer = .showing ∨ s.channels[n].layer = .blank) :
    readingExpired n s = release n (s.withChannel n s.channels[n].readingEnded) := by
  rcases hl with showing | blank
  · simp only [readingExpired, Channel.readingEnded, hr, showing, isDue, hd, if_true]
  · simp only [readingExpired, Channel.readingEnded, hr, blank, isDue, hd, if_true, reduceCtorEq, if_false]

/-- In OFF, GAP and SETTLED the passed deadline is disarmed. -/
theorem readingExpired_rests (hl : s.channels[n].layer ≠ .showing ∧ s.channels[n].layer ≠ .blank) :
    readingExpired n s = s.withChannel n s.channels[n].readingEnded := by
  obtain ⟨showing, blank⟩ := hl
  cases layer : s.channels[n].layer with
  | showing => exact absurd layer showing
  | blank => exact absurd layer blank
  | off | gap | settled =>
    simp only [readingExpired, Channel.readingEnded, hr, layer, isDue, hd, if_true, reduceCtorEq, if_false]

/-- With nothing queued, or nothing to release, the passed deadline is disarmed and that is all. -/
theorem readingExpired_disarms (h : s.channels[n].queue = [] ∨ s.channels[n].layer = .off ∨
      s.channels[n].layer = .gap ∨ s.channels[n].layer = .settled) :
    readingExpired n s = s.withChannel n s.channels[n].readingEnded := by
  rcases h with empty | resting
  · by_cases hl : s.channels[n].layer = .showing ∨ s.channels[n].layer = .blank
    · rw [readingExpired_releases hr hd hl, release]
      split
      · exact releaseLoop_of_empty ((congrArg Channel.queue (withChannel_self s n _)).trans empty)
      · rfl
    · exact readingExpired_rests hr hd (not_or.mp hl)
  · refine readingExpired_rests hr hd ?_
    rcases resting with layer | layer | layer
    all_goals
      rw [layer]
      decide

theorem readingExpired_channelOnly : ChannelOnly n s (readingExpired n s) := by
  by_cases hl : s.channels[n].layer = .showing ∨ s.channels[n].layer = .blank
  · rw [readingExpired_releases hr hd hl]
    exact (ChannelOnly.channel s n _).trans (release_channelOnly n _)
  · rw [readingExpired_rests hr hd (not_or.mp hl)]
    exact .channel s n _

end expiry

section ended
variable {c : Channel}

theorem readingEnded_releases (h : c.layer = .showing ∨ c.layer = .blank) :
    c.readingEnded.layer = .blank ∨ c.readingEnded.layer = .settled := by
  rcases h with showing | blank
  · exact .inr (if_pos showing)
  · exact .inl (by simp [Channel.readingEnded, blank])

theorem readingEnded_of_blank (h : c.layer = .blank) : c.readingEnded.layer = .blank := by
  simp [Channel.readingEnded, h]

end ended

end Sys2Proof.Machine

namespace Sys2Proof.Proofs

open Sys2Proof.Machine

/-- Settles O22: the passed deadline is disarmed, and where it releases, the head of the queue says what follows; the
notices offered last write nothing. -/
theorem readingExpirySettlesTheTitle : Obligations.ReadingExpirySettlesTheTitle := by
  intro m n d s₀ s hs hreading hdue c l ended
  have apart := readingExpired_channelOnly hreading hdue
  have offered := offerHalves_only (readingExpired n s)
  have only := apart.toCaptionsOnly.trans offered.toCaptionsOnly
  have last := offered.notWritten n
  have same := offerHalves_channel n (readingExpired n s)
  refine ⟨_, during_awake _ hs, fun rests => ?_, fun i rest queue releasing => ⟨fun kind text => ?_,
    fun x kind text atOnce => ?_, fun x kind text showing gap => ?_, fun kind behind => ?_⟩,
    fun k hk => (offerHalves_channel k _).trans (apart.others k hk), only.outside, only.score,
    ⟨only.staging, only.firing⟩, only.placements, only.stores, only.control, only.requests⟩
  · have still : offerHalves (readingExpired n s) = s.withChannel n ended := by
      rw [readingExpired_disarms hreading hdue rests]
      exact offerHalves_none _ hs.halves
    rw [still]
    exact ⟨rfl, rfl, ⟨rfl, rfl⟩, rfl, rfl, rfl⟩
  · have awaiting : i.awaiting = true := by simp [Item.awaiting, kind, text]
    have still : offerHalves (readingExpired n s) =
        s.withChannel n { ended with queue := { i with late := true } :: rest } := by
      rw [readingExpired_releases hreading hdue releasing,
        release_of_awaiting (x := c.readingEnded) (readingEnded_releases releasing) rfl queue awaiting]
      exact offerHalves_none _ hs.halves
    rw [still]
    exact ⟨rfl, rfl, ⟨rfl, rfl⟩, rfl, rfl, rfl⟩
  · have awaiting : i.awaiting = false := by simp [Item.awaiting, text]
    have shown : readingExpired n s = showTitle n i (s.withChannel n { c.readingEnded with queue := rest }) := by
      rw [readingExpired_releases hreading hdue releasing]
      exact release_of_title (readingEnded_releases releasing) rfl queue kind awaiting
        (atOnce.imp_left readingEnded_of_blank)
    obtain ⟨⟨content, number, channel⟩, onTop, beneath⟩ := showTitle_shows (n := n) (i := i)
      (x := { c.readingEnded with queue := rest }) (s := s) rfl rfl
    rw [← shown] at channel onTop beneath
    rw [← same] at channel
    refine ⟨?_, ?_, ?_, ?_, ?_, fun top => ?_, fun under => (beneath under).trans last⟩
    · rw [channel]; rfl
    · rw [channel]; rfl
    · rw [channel]; rfl
    · rw [channel]
      simp only [Channel.shows, text]
      rfl
    · rw [channel]
      refine (shows_reading _ _ _ _).trans ?_
      rw [text]
      rfl
    · have written := (onTop top).trans last
      rw [Item.content, text] at written
      exact written
  · have awaiting : i.awaiting = false := by simp [Item.awaiting, text]
    have begun : readingExpired n s =
        recompose n .nothing (s.withChannel n (c.readingEnded.gapBefore i rest l.gap s.clock)) := by
      rw [readingExpired_releases hreading hdue releasing]
      exact release_of_gap (if_pos showing) queue kind awaiting gap
    obtain ⟨⟨content, number, channel⟩, title, blank, beneath⟩ := gapBefore_begun (n := n) (s := s)
      (x := c.readingEnded) i rest l.gap rfl rfl
    rw [← begun] at channel title blank beneath
    rw [← same] at channel
    refine ⟨?_, ?_, ?_, ?_, ?_, ?_, fun top old => (title top old).trans last, fun top old => (blank top old).trans last,
      fun under => (beneath under).trans last⟩
    all_goals
      rw [channel]
      rfl
  · have taken : readingExpired n s = takeBlank n i (s.withChannel n { c.readingEnded with queue := [] }) := by
      rw [readingExpired_releases hreading hdue releasing]
      exact release_of_blank (readingEnded_releases releasing) rfl (queue.trans (by rw [behind])) kind
    obtain ⟨⟨content, number, slipMax, channel⟩, title, blank, beneath⟩ := takeBlank_taken (n := n) (i := i) (s := s)
      (x := { c.readingEnded with queue := [] }) rfl rfl
    rw [← taken] at channel title blank beneath
    rw [← same] at channel
    refine ⟨?_, ?_, ?_, ?_, fun top old => (title top old).trans last, fun top old => (blank top old).trans last,
      fun under => (beneath under).trans last⟩
    all_goals
      rw [channel]
      rfl

end Sys2Proof.Proofs
end

section
/-! Messages placed (R99, R101, R103): who stands on a placement, and which message is a channel's top one. -/

namespace Sys2Proof.Machine

/-! ### Sets of channels -/

theorem setHas_or_bit (set : ChannelSet) (k n : Fin 8) :
    setHas (set ||| (1#8 <<< k.val)) n = (setHas set n || decide (n = k)) := by
  have bit : (1#8 <<< k.val).getLsbD n.val = decide (n = k) := by
    revert k n
    decide
  rw [setHas, BitVec.getLsbD_or, bit, setHas]

/-- A channel is in the set gathered from a list when it was in it before, or is listed with the property. -/
theorem setHas_gathered (p : Fin 8 → Bool) (n : Fin 8) (l : List (Fin 8)) (set : ChannelSet) :
    setHas (l.foldl (fun set k => if p k then set ||| (1#8 <<< k.val) else set) set) n =
      (setHas set n || (decide (n ∈ l) && p n)) := by
  induction l generalizing set with
  | nil => simp
  | cons k rest ih =>
    rw [List.foldl_cons, ih]
    by_cases same : n = k
    · subst same
      cases hp : p n <;> simp [setHas_or_bit]
    · cases p k <;> simp [setHas_or_bit, same]

/-- The channels with a property are those that have it. -/
theorem setHas_channelsWhere (p : Fin 8 → Bool) (n : Fin 8) : setHas (channelsWhere p) n = p n := by
  rw [channelsWhere, setHas_gathered, decide_eq_true (mem_allChannels n)]
  simp [setHas]

theorem setHas_none (n : Fin 8) : setHas 0 n = false := BitVec.getLsbD_zero

/-! ### Who stands on a placement (R99, R101) -/

/-- Whether a placement stands on a channel at a level. -/
def Placement.standsAt (n : Fin 8) (level : Level) (p : Placement) : Bool :=
  decide (p.level = level) && setHas p.channels n

theorem messageAt_eq (s : State) (n : Fin 8) (level : Level) :
    messageAt s n level = s.placements.find? (Placement.standsAt n level) := rfl

/-- A placement once the channels of a set have left that level. -/
def Placement.leftBy (level : Level) (set : ChannelSet) (p : Placement) : Placement :=
  if p.level = level then { p with channels := p.channels &&& ~~~set } else p

theorem leftBy_message (level : Level) (set : ChannelSet) (p : Placement) :
    (p.leftBy level set).message = p.message := by
  unfold Placement.leftBy
  split <;> rfl

/-- Leaving a level concerns the channels of the set at that level alone. -/
theorem leftBy_standsAt {n : Fin 8} {level other : Level} {set : ChannelSet}
    (h : other ≠ level ∨ setHas set n = false) (p : Placement) :
    (p.leftBy level set).standsAt n other = p.standsAt n other := by
  unfold Placement.leftBy
  split
  · next same =>
    rcases h with differs | out
    · have apart : p.level ≠ other := fun e => differs (e.symm.trans same)
      simp [Placement.standsAt, apart]
    · simp [Placement.standsAt, setHas_without, out]
  · rfl

/-- A placement that stands on a channel is not an empty one. -/
theorem standsAt_nonempty {n : Fin 8} {level : Level} {p : Placement} (h : p.standsAt n level = true) :
    p.channels ≠ 0 := by
  intro empty
  rw [Placement.standsAt, empty, setHas_none, Bool.and_false] at h
  cases h

/-- A message on a channel outside the set, or at another level, stays when the set's channels leave a level. -/
theorem leavePlacements_kept {n : Fin 8} {level other : Level} {set : ChannelSet}
    (h : other ≠ level ∨ setHas set n = false) (ps : List Placement) :
    ((leavePlacements level set ps).find? (Placement.standsAt n other)).map Placement.message =
      (ps.find? (Placement.standsAt n other)).map Placement.message := by
  have left : leavePlacements level set ps =
      (ps.map (Placement.leftBy level set)).filter (fun p => p.channels ≠ 0) := rfl
  have read : Placement.message ∘ Placement.leftBy level set = Placement.message :=
    funext (leftBy_message level set)
  rw [left, List.find?_filter, List.find?_map, Option.map_map, read]
  refine congrArg (fun f => (ps.find? f).map Placement.message) (funext fun p => ?_)
  rw [Function.comp_apply, leftBy_standsAt h p]
  cases stands : p.standsAt n other with
  | false => simp
  | true => simpa using standsAt_nonempty ((leftBy_standsAt h p).trans stands)

/-! ### The overlay once a message has been placed (R103) -/

/-- The placement a SHOW_MESSAGE makes. -/
def placementOf (tag : Byte) (level : Level) (set : ChannelSet) (duration : Nat) (text : List Byte) (now : Time) :
    Placement :=
  { tag := tag, level := level, bytes := text, lines := lineBreaks text + 1, placed := now,
    expiry := expiryOf now duration, channels := set }

/-- The overlay's placements with a message placed on a set of channels, or as they are where the set is empty. -/
def overlaid (p : Placement) (ps : List Placement) : List Placement :=
  if p.channels = 0 then ps else leavePlacements p.level p.channels ps ++ [p]

section overlay
variable {n : Fin 8} {p : Placement} {level : Level} {s : State}

theorem overlaid_placed (h : setHas p.channels n = true) :
    messageAt (s.withPlacements (overlaid p s.placements)) n p.level = some p := by
  have nonempty : p.channels ≠ 0 := fun empty => by
    rw [empty, setHas_none] at h
    cases h
  have stands : p.standsAt n p.level = true := by simp [Placement.standsAt, h]
  have left : (leavePlacements p.level p.channels s.placements).find? (Placement.standsAt n p.level) = none :=
    messageAt_none (s := s.withPlacements _).2 (leavePlacements_left (.inl h))
  have found : (overlaid p s.placements).find? (Placement.standsAt n p.level) = some p := by
    rw [overlaid, if_neg nonempty, List.find?_append, left, List.find?_cons_of_pos stands]
    rfl
  exact found

theorem overlaid_kept (h : level ≠ p.level ∨ setHas p.channels n = false) :
    (messageAt (s.withPlacements (overlaid p s.placements)) n level).map Placement.message =
      (messageAt s n level).map Placement.message := by
  have passed : p.standsAt n level = false := by
    rcases h with differs | out
    · simp [Placement.standsAt, differs.symm]
    · simp [Placement.standsAt, out]
  rw [messageAt_eq, messageAt_eq, ← leavePlacements_kept h s.placements]
  unfold overlaid
  split
  · exact (leavePlacements_kept h s.placements).symm
  · have sought : (leavePlacements p.level p.channels s.placements ++ [p]).find? (Placement.standsAt n level) =
        (leavePlacements p.level p.channels s.placements).find? (Placement.standsAt n level) := by
      rw [List.find?_append, List.find?_cons_of_neg (by rw [passed]; decide), List.find?_nil, Option.or_none]
    exact congrArg (Option.map Placement.message) sought

/-- Level 3 counts in every show state, the others outside DARK (R99). -/
theorem eligible_of_undark {show_ : ShowState} (h : level ≠ .alert → show_ ≠ .dark) : eligible show_ level = true := by
  by_cases alert : level = .alert
  · simp [eligible, alert]
  · simp [eligible, h alert]

/-- An eligible message with no eligible one above it is the top one (R99). -/
theorem topMessage_of_highest (he : eligible s.control.show_ level = true) (hp : messageAt s n level = some p)
    (bare : ∀ above : Level, level.number < above.number → eligible s.control.show_ above = true →
      messageAt s n above = none) : topMessage s n = some p := by
  have own : (if eligible s.control.show_ level then messageAt s n level else none) = some p := (if_pos he).trans hp
  have passed : ∀ above : Level, level.number < above.number →
      (if eligible s.control.show_ above then messageAt s n above else none) = none := fun above higher => by
    split
    · next counts => exact bare above higher counts
    · rfl
  cases level with
  | alert => simp only [topMessage, List.findSome?_cons, own]
  | house => simp only [topMessage, List.findSome?_cons, passed .alert (by decide), own]
  | slate =>
    simp only [topMessage, List.findSome?_cons, passed .alert (by decide), passed .house (by decide), own]

theorem topMessage_congr {t : State} (hc : t.control = s.control) (hp : t.placements = s.placements) :
    topMessage t n = topMessage s n := by
  unfold topMessage messageAt
  rw [hc, hp]

end overlay

end Sys2Proof.Machine
end

section
/-! The channels told of a change of the overlay (R90, R91): each composes its content afresh, apart from the others. -/

namespace Sys2Proof.Machine

/-! ### One channel among those told -/

section told
variable {n k : Fin 8} {why : Arrived} {s : State}

theorem recompose_transmitting (busy : s.link.sendingD.isSome = true) :
    (recompose n why s).link.sendingD = s.link.sendingD := by
  unfold recompose
  dsimp only
  split
  · split
    · rfl
    · exact writeCaption_transmitting (s := s.withChannel n { s.channels[n] with content := contentOf s n }) busy
  · rfl

/-- A channel composed afresh leaves every other apart. -/
theorem recompose_apart (h : n ≠ k) (s : State) : Apart n s (recompose k why s) := by
  unfold recompose
  dsimp only
  split
  · split
    · exact .channelSet h s _
    · exact (Apart.channelSet h s _).trans (writeCaption_apart h _)
  · exact .refl n s

end told

/-- What a channel does when it is told of a change on a set of channels. -/
def tellChannel (set : ChannelSet) (why : Arrived) (n : Fin 8) (s : State) : State :=
  if setHas set n then recompose n why s else s

section channels
variable {set : ChannelSet} {why : Arrived} {n : Fin 8}

theorem tellChannels_eq (s : State) : tellChannels set why s = forChannels (tellChannel set why) s := rfl

theorem tellChannel_only (n : Fin 8) (s : State) : CaptionsOnly s (tellChannel set why n s) := by
  unfold tellChannel
  split
  · exact recompose_only n why s
  · exact .refl s

theorem tellChannel_apart {k : Fin 8} (s : State) (h : n ≠ k) : Apart n s (tellChannel set why k s) := by
  unfold tellChannel
  split
  · exact recompose_apart h s
  · exact .refl n s

theorem tellChannels_counters (s : State) : (tellChannels set why s).counters = s.counters :=
  forChannels_keeps (fun s t => t.counters = s.counters) (fun _ => rfl) (fun _ _ _ h k => k.trans h) _ (fun n s => by
    split
    · exact recompose_counters n why s
    · rfl) s

/-- A transmitting port D goes on transmitting. -/
theorem tellChannels_transmitting (s : State) :
    s.link.sendingD.isSome = true → (tellChannels set why s).link.sendingD.isSome = true :=
  forChannels_keeps (fun s t => s.link.sendingD.isSome = true → t.link.sendingD.isSome = true) (fun _ => id)
    (fun _ _ _ h k busy => k (h busy)) _ (fun n s busy => by
      split
      · rw [recompose_transmitting busy]
        exact busy
      · exact busy) s

/-- Among the channels told, each does its own in some state of captions' width that has come to it apart. -/
theorem tellChannels_among (n : Fin 8) (s : State) :
    ∃ u, CaptionsOnly s u ∧ Apart n s u ∧ Apart n (tellChannel set why n u) (tellChannels set why s) := by
  obtain ⟨before, after, split⟩ := List.append_of_mem (mem_allChannels n)
  have distinct : (before ++ n :: after).Nodup := split ▸ (by decide : allChannels.Nodup)
  obtain ⟨-, hafter, apart⟩ := List.nodup_append.1 distinct
  have hbefore : n ∉ before := fun h => apart n h n List.mem_cons_self rfl
  refine ⟨before.foldl (fun s k => tellChannel set why k s) s, ?_,
    foldl_leaves (fun _ => tellChannel_apart) hbefore s, ?_⟩
  · exact foldl_keeps CaptionsOnly .refl (fun _ _ _ => .trans) _ (fun s k => tellChannel_only k s) before s
  · rw [tellChannels_eq, forChannels, split, List.foldl_append, List.foldl_cons]
    exact foldl_leaves (fun _ => tellChannel_apart) (List.nodup_cons.1 hafter).1 _

/-- A channel outside the set is as before. -/
theorem tellChannels_outside (out : setHas set n = false) (s : State) : Apart n s (tellChannels set why s) := by
  obtain ⟨u, -, before, after⟩ := tellChannels_among (set := set) (why := why) n s
  have still : tellChannel set why n u = u := if_neg (by rw [out]; decide)
  rw [still] at after
  exact before.trans after

theorem tellChannels_none (s : State) : tellChannels 0 why s = s :=
  forChannels_keeps (fun s t => t = s) (fun _ => rfl) (fun _ _ _ h k => k.trans h) _
    (fun n _ => if_neg (by rw [setHas_none n]; decide)) s

end channels

/-! ### A content stored, and in its slot -/

/-- What of a caption written on a channel stays while other channels write theirs: its content, its number, and on a
transmitting port D its slot (R91, R93, R94, R154). -/
def Slotted (n : Fin 8) (content : Content) (s t : State) : Prop :=
  let k := s.config.channels[n]
  t.channels[n].content = content ∧
    ((k.muted = true ∨ withheld s n = true) → t.channels[n].number = s.channels[n].number) ∧
    (k.muted = false → withheld s n = false → t.channels[n].number = s.channels[n].number + 1 ∧
      (s.link.sendingD.isSome = true → t.link.slots[n] =
        some (captionOf k.address n (s.channels[n].number + 1) k.lines content)))

section slotted
variable {n : Fin 8} {content : Content} {s t u : State}

theorem Written.slotted (h : Written n content s t) : Slotted n content s t := by
  obtain ⟨stored, silent, sent⟩ := h
  refine ⟨stored, fun quiet => (silent quiet).1, fun unmuted free => ⟨(sent unmuted free).1, fun busy => ?_⟩⟩
  rw [((sent unmuted free).2 busy).1]
  exact Vector.getElem_set_self _

/-- It is the same seen from before other channels' captions. -/
theorem Slotted.since (h : Slotted n content u t) (before : Apart n s u) : Slotted n content s t := by
  obtain ⟨stored, silent, sent⟩ := h
  rw [before.config, before.channel, before.withheld] at *
  exact ⟨stored, silent, fun unmuted free =>
    (sent unmuted free).imp_right fun slot busy => slot (before.slot busy).1⟩

/-- It stays when other channels write theirs after it. -/
theorem Slotted.until (h : Slotted n content s t) (after : Apart n t u)
    (transmitting : s.link.sendingD.isSome = true → t.link.sendingD.isSome = true) : Slotted n content s u := by
  obtain ⟨stored, silent, sent⟩ := h
  unfold Slotted
  rw [after.channel]
  exact ⟨stored, silent, fun unmuted free =>
    (sent unmuted free).imp_right fun slot busy => (after.slot (transmitting busy)).2.trans (slot busy)⟩

/-- A channel told that a message of a level has arrived, which is its top message, takes it as its content. -/
theorem tellChannels_shows {set : ChannelSet} {p : Placement} (member : setHas set n = true)
    (enabled : s.config.channels[n].enabled = true) (top : topMessage s n = some p) :
    Slotted n (.message p.level p.bytes p.lines) s (tellChannels set (.message p.level) s) := by
  obtain ⟨u, only, before, after⟩ := tellChannels_among (set := set) (why := .message p.level) n s
  have own : tellChannel set (.message p.level) n u = recompose n (.message p.level) u := if_pos member
  rw [own] at after
  have live : u.config.channels[n].enabled = true := by rw [before.config]; exact enabled
  have content : contentOf u n = .message p.level p.bytes p.lines := by
    rw [contentOf, if_pos live, topMessage_congr only.control only.placements, top]
  have changes : contentChanges u.channels[n].content (contentOf u n) (.message p.level) = true := by
    rw [content]
    simp [contentChanges, Content.isMessage]
  have written := recompose_written live changes
  rw [content] at written
  exact (written.slotted.until after fun busy => by rw [recompose_transmitting busy]; exact busy).since before

end slotted

end Sys2Proof.Machine
end

section
/-! SHOW_MESSAGE (R100 to R103): what an accepted message makes of overlay and channels, and its answer. -/

namespace Sys2Proof.Machine

/-- The state with a message placed and its channels told; an empty set changes nothing. -/
def placed (p : Placement) (s : State) : State :=
  tellChannels p.channels (.message p.level) (s.withPlacements (overlaid p s.placements))

/-- The data that answers an accepted SHOW_MESSAGE: level, set, applied duration, and whether it was clamped (R103). -/
def placedData (level : Byte) (set : ChannelSet) (duration : BitVec 16) : List Byte :=
  [level, set] ++ be 2 (min duration.toNat 600) ++ [if 600 < duration.toNat then 1 else 0]

section placing
variable {tag confirm level mask : Byte} {l : Level} {text : List Byte} {s : State}

theorem placed_eq (set : ChannelSet) (duration : Nat) :
    (if set = 0 then s else placeMessage tag l set duration text s) =
      placed (placementOf tag l set duration text s.clock) s := by
  by_cases empty : set = 0
  · subst empty
    exact (tellChannels_none s).symm
  · rw [if_neg empty]
    have laid : overlaid (placementOf tag l set duration text s.clock) s.placements =
        leavePlacements l set s.placements ++ [placementOf tag l set duration text s.clock] := if_neg empty
    unfold placed
    rw [laid]
    rfl

/-- A SHOW_MESSAGE that passes the checks is answered with its message placed (R100). -/
theorem doShowMessage_of_checked {duration : BitVec 16} (hl : levelOf level = some l)
    (alert : l = .alert → confirm = 0xDF) (lower : l ≠ .alert → s.control.show_ ≠ .dark ∧ mask ≠ 0)
    (short : text.length ≤ 160) :
    doShowMessage tag confirm level mask duration text s =
      .answer (placed (placementOf tag l (placementSet l mask s) duration.toNat text s.clock) s) .ok
        (placedData level (placementSet l mask s) duration) := by
  rw [doShowMessage, hl]
  refine (if_neg fun ⟨isAlert, wrong⟩ => wrong (alert isAlert)).trans <|
    (if_neg fun ⟨isLower, dark⟩ => (lower isLower).1 dark).trans <|
    (if_neg (Nat.not_lt.2 short)).trans <|
    (if_neg fun ⟨isLower, unnamed⟩ => (lower isLower).2 unnamed).trans ?_
  dsimp only
  rw [placed_eq]
  simp only [appliedDuration, yes, decide_eq_true_eq, placedData]

/-- A SHOW_MESSAGE with a text of at most 160 bytes fits a frame (R148, R164). -/
theorem showMessagePayload_fits (duration : BitVec 16) (short : text.length ≤ 160) :
    (requestPayload (.showMessage level mask duration text) tag confirm).length ≤ Config.payloadMax := by
  simp only [requestPayload, requestParameters, be, Config.payloadMax, List.length_append, List.length_cons,
    List.length_nil]
  omega

/-- The channels of the set are the enabled ones the mask names, or all enabled ones at level 3 (R101). -/
theorem setHas_placementSet (n : Fin 8) : setHas (placementSet l mask s) n = true ↔
    (s.config.channels[n].enabled = true ∧ (l = .alert ∨ setHas mask n = true)) := by
  rw [placementSet, setHas_channelsWhere, Bool.and_eq_true, Bool.or_eq_true, decide_eq_true_eq]

end placing

/-- A request's effect of captions' width, once answered, keeps to that width from the state that found none in hand. -/
theorem CaptionsOnly.answered {s u : State} {g : Handling} (h : CaptionsOnly (takeInHand g s) u)
    (hs : s.management.handling = none) (result : Result) (data : List Byte) :
    CaptionsOnly s (respond g result data u) := by
  obtain ⟨v, hv, sent⟩ := respond_only g result data u
  obtain ⟨hfifo, -, hvalid⟩ := (h.trans hv.toCaptionsOnly).requests
  have ended : CaptionsOnly s (v.withManagement { v.management with handling := none }) :=
    { h.trans hv.toCaptionsOnly with requests := ⟨hfifo, hs.symm, hvalid⟩ }
  exact ended.trans sent.toCaptionsOnly

section shown
variable {n : Fin 8} {p : Placement} {s : State}

theorem placed_only (p : Placement) (s : State) :
    CaptionsOnly (s.withPlacements (overlaid p s.placements)) (placed p s) := tellChannels_only _ _ _

theorem placed_transmitting (p : Placement) (s : State) :
    s.link.sendingD.isSome = true → (placed p s).link.sendingD.isSome = true :=
  tellChannels_transmitting (s.withPlacements (overlaid p s.placements))

/-- A channel of the set with no eligible message above takes the message as its content. -/
theorem placed_shown (member : setHas p.channels n = true) (enabled : s.config.channels[n].enabled = true)
    (counts : eligible s.control.show_ p.level = true)
    (bare : ∀ above : Level, p.level.number < above.number → eligible s.control.show_ above = true →
      messageAt s n above = none) :
    Slotted n (.message p.level p.bytes p.lines) s (placed p s) := by
  have top : topMessage (s.withPlacements (overlaid p s.placements)) n = some p := by
    refine topMessage_of_highest counts (overlaid_placed member) fun above higher eligible => ?_
    have differs : above ≠ p.level := fun e => by
      rw [e] at higher
      exact Nat.lt_irrefl _ higher
    have kept := overlaid_kept (s := s) (n := n) (.inl differs)
    rw [bare above higher eligible] at kept
    exact Option.map_eq_none_iff.1 kept
  exact tellChannels_shows (s := s.withPlacements (overlaid p s.placements)) member enabled top

end shown

end Sys2Proof.Machine

namespace Sys2Proof.Proofs

open Sys2Proof.Machine

/-- Settles O25: the answer leaves overlay and channels as the placing left them. -/
theorem showMessageIsPlaced : Obligations.ShowMessageIsPlaced := by
  intro m h level mask l duration text s₀ s hs hl alert lower short set
  let r : Request := .showMessage level mask duration text
  let p := placementOf h.tag l set duration.toNat text s.clock
  obtain ⟨hrun, hanswered⟩ := request_answered h r _ _ _ hs (showMessagePayload_fits duration short)
    (doShowMessage_of_checked (s := inHand h r s) hl alert lower short)
  have only := CaptionsOnly.answered (s := s.withPlacements (overlaid p s.placements)) (placed_only p (inHand h r s))
    hs.handling .ok (placedData level set duration)
  have last := respond_apart (handlingOf h (requestCode r)) .ok (placedData level set duration)
  obtain ⟨-, -, -, counters⟩ := respond_beside (handlingOf h (requestCode r)) .ok
    (placedData level set duration) (placed p (inHand h r s))
  refine ⟨_, hrun, hanswered, fun n => setHas_placementSet n, fun empty => only.placements.trans (if_pos empty),
    fun n member => ⟨p, ?_, rfl, rfl, rfl, rfl, rfl⟩, fun n other apart => ?_, fun n member bare => ?_, fun n out => ?_,
    only.outside, only.score, ⟨only.staging, only.firing⟩, only.stores, only.control,
    counters.trans (tellChannels_counters _), only.requests⟩
  · exact (messageAt_congr only.placements).trans (overlaid_placed (p := p) member)
  · exact (congrArg (Option.map Placement.message) (messageAt_congr only.placements)).trans (overlaid_kept (p := p) apart)
  · have counts := eligible_of_undark fun below => (lower below).1
    have shown := placed_shown (s := inHand h r s) (p := p) member ((setHas_placementSet n).1 member).1 counts bare
    exact shown.until (last n (placed p (inHand h r s))) (placed_transmitting p (inHand h r s))
  · exact (last n _).channel.trans (tellChannels_outside out _).channel

end Sys2Proof.Proofs
end

section
/-! The overlay told and cleared (R103, R104): what telling the channels leaves of the management block, and what an
accepted CLEAR_MESSAGE makes of the slots. -/

namespace Sys2Proof.Machine

/-! ### Telling the channels makes no notice -/

theorem recompose_management (n : Fin 8) (why : Arrived) (s : State) :
    (recompose n why s).management = s.management := by
  unfold recompose
  dsimp only
  split
  · split
    · rfl
    · exact (putCaption_only _ _).management
  · rfl

theorem tellChannels_management (set : ChannelSet) (why : Arrived) (s : State) :
    (tellChannels set why s).management = s.management :=
  forChannels_keeps (fun s t => t.management = s.management) (fun _ => rfl) (fun _ _ _ h k => k.trans h) _
    (fun n s => by
      split
      · exact recompose_management n why s
      · rfl) s

/-- With no COUNTER_HALF held back, answering makes no notice (R163, R170). -/
theorem respond_notices {g : Handling} {result : Result} {data : List Byte} {s : State}
    (h : s.management.halves = []) : sameNotices s (respond g result data s) := by
  rw [respond_plain g result data s h]
  exact placeResponse_notices _ (s.withManagement { s.management with handling := none })

/-! ### CLEAR_MESSAGE (R104) -/

/-- The state with the messages of a level off a set of channels, and those told. -/
def cleared (l : Level) (set : ChannelSet) (s : State) : State :=
  tellChannels set .nothing (s.withPlacements (leavePlacements l set s.placements))

theorem cleared_only (l : Level) (set : ChannelSet) (s : State) :
    CaptionsOnly (s.withPlacements (leavePlacements l set s.placements)) (cleared l set s) := tellChannels_only _ _ _

section clearing
variable {confirm level mask : Byte} {l : Level} {s : State}

/-- A CLEAR_MESSAGE that passes the checks is answered with the slots cleared (R104). -/
theorem doClearMessage_of_checked (hl : levelOf level = some l) (alert : l = .alert → confirm = 0xDE)
    (lower : l ≠ .alert → mask ≠ 0) :
    doClearMessage confirm level mask s =
      .answer (cleared l (clearedSet l mask s) s) .ok [level, clearedSet l mask s] := by
  rw [doClearMessage, hl]
  exact (if_neg fun ⟨isAlert, wrong⟩ => wrong (alert isAlert)).trans
    (if_neg fun ⟨isLower, unnamed⟩ => lower isLower unnamed)

/-- The set is of the channels with a message at the level that the mask names, or of all of them at level 3 (R104). -/
theorem setHas_clearedSet (n : Fin 8) : setHas (clearedSet l mask s) n = true ↔
    ((messageAt s n l).isSome = true ∧ (l = .alert ∨ setHas mask n = true)) := by
  rw [clearedSet, setHas_channelsWhere, Bool.and_eq_true, Bool.or_eq_true, decide_eq_true_eq]

end clearing

end Sys2Proof.Machine

namespace Sys2Proof.Proofs

open Sys2Proof.Machine

/-- Settles O26: the answer leaves the overlay as the clear left it, and neither tells anything. -/
theorem clearMessageEmptiesTheSlots : Obligations.ClearMessageEmptiesTheSlots := by
  intro m h level mask l s₀ s hs hl alert lower set
  let r : Request := .clearMessage level mask
  let u : State := cleared l set (inHand h r s)
  obtain ⟨hrun, hanswered⟩ := request_answered h r _ _ _ hs (by decide : 5 ≤ 240)
    (doClearMessage_of_checked (s := inHand h r s) hl alert lower)
  have only := CaptionsOnly.answered (s := s.withPlacements (leavePlacements l set s.placements))
    (cleared_only l set (inHand h r s)) hs.handling .ok [level, set]
  obtain ⟨-, -, -, counters⟩ := respond_beside (handlingOf h (requestCode r)) .ok [level, set] u
  have told : u.management = (inHand h r s).management := tellChannels_management _ _ _
  have silent : sameNotices u (respond (handlingOf h (requestCode r)) .ok [level, set] u) :=
    respond_notices ((congrArg Management.halves told).trans hs.halves)
  have still : sameNotices (inHand h r s) u := ⟨congrArg Management.notices told, congrArg Management.discarded told⟩
  refine ⟨_, hrun, hanswered, fun n => setHas_clearedSet n, fun n member => ?_, fun n other apart => ?_,
    only.outside, only.score, ⟨only.staging, only.firing⟩, only.stores, only.control,
    counters.trans (tellChannels_counters _), only.requests, still.trans silent⟩
  · exact (messageAt_congr only.placements).trans
      (messageAt_none (s := s.withPlacements _).2 (leavePlacements_left (.inl member)))
  · exact (congrArg (Option.map Placement.message) (messageAt_congr only.placements)).trans
      (leavePlacements_kept apart s.placements)

end Sys2Proof.Proofs
end

section
/-! A message's expiry (R103, R105): the deadline its duration gives it, and what the expiry takes from the overlay. -/

namespace Sys2Proof.Machine

/-- The notice that tells of a placement's expiry (R105). -/
def expiryNotice (p : Placement) (d : Time) : Notice :=
  .messageExpired p.level p.tag p.channels (millis p.placed) (millis d)

/-- The state with the placement at a place off the list, its expiry told, and its channels told of it. -/
def expired (i : Nat) (p : Placement) (d : Time) (s : State) : State :=
  tellChannels p.channels .nothing (notify (expiryNotice p d) (s.withPlacements (s.placements.eraseIdx i)))

section expiry
variable {i : Nat} {p : Placement} {d : Time} {s : State}

theorem messageExpired_of_due (hp : s.placements[i]? = some p) (hd : p.expiry = some d)
    (passed : due d s.clock = true) : messageExpired i s = expired i p d s := by
  simp only [messageExpired, hp, hd, passed, if_true]
  rfl

/-- An expiry keeps to captions' width once the placement is off the list. -/
theorem expired_only (i : Nat) (p : Placement) (d : Time) (s : State) :
    CaptionsOnly (s.withPlacements (s.placements.eraseIdx i)) (expired i p d s) :=
  (notify_only _ _).toCaptionsOnly.trans (tellChannels_only _ _ _)

theorem expired_counters : (expired i p d s).counters = s.counters :=
  (tellChannels_counters _).trans (notify_only _ _).counters

theorem expired_halves : (expired i p d s).management.halves = s.management.halves :=
  (congrArg Management.halves (tellChannels_management _ _ _)).trans (notify_only _ _).halves

/-- Given room, the expiry is told. -/
theorem expired_tells (room : roomFor s .messageExpired) : Admitted s (expired i p d s) (expiryNotice p d) := by
  have told : Admitted s (notify (expiryNotice p d) (s.withPlacements (s.placements.eraseIdx i))) (expiryNotice p d) :=
    notify_admitted (expiryNotice p d) (s.withPlacements (s.placements.eraseIdx i)) room
  refine told.mono ?_
  rw [expired, tellChannels_management]

end expiry

end Sys2Proof.Machine

namespace Sys2Proof.Proofs

open Sys2Proof.Machine

/-- Settles O27: the expiry is all that the command does, as it holds back no notice. -/
theorem messageExpiryRemovesThePlacement : Obligations.MessageExpiryRemovesThePlacement := by
  intro m i p d s₀ s hs hp hd passed
  have only := expired_only i p d s
  have run : exec (.messageExpiry m i) s₀ = .next (expired i p d s) := by
    rw [← messageExpired_of_due hp hd passed]
    refine during_plain (messageExpired i) hs ?_
    rw [messageExpired_of_due hp hd passed, expired_halves]
    exact hs.halves
  exact ⟨_, run, only.placements, only.outside, only.score, ⟨only.staging, only.firing⟩, only.stores, only.control,
    expired_counters, only.requests, expired_tells⟩

/-- Settles O29: the three ranges of the duration, of which the first has no deadline and the last is clamped. -/
theorem durationDecidesTheDeadline : Obligations.DurationDecidesTheDeadline := by
  intro now d
  refine ⟨fun unlimited => ?_, fun positive within => ?_, fun beyond => ?_⟩
  · subst unlimited
    exact ⟨rfl, rfl⟩
  · have applied : appliedDuration d = d := Nat.min_eq_left within
    refine ⟨applied, ?_⟩
    rw [expiryOf, if_neg (Nat.ne_of_gt positive), applied]
    rfl
  · have applied : appliedDuration d = 600 := Nat.min_eq_right (Nat.le_of_lt beyond)
    refine ⟨applied, ?_⟩
    rw [expiryOf, if_neg (Nat.ne_of_gt (Nat.zero_lt_of_lt beyond)), applied]
    rfl

end Sys2Proof.Proofs
end

section
/-! One message per channel and level (R98): what keeps a list of placements so, and the relation `KeepsPlacements`
through every block's operations. Only the overlay unit, a disabled channel and UNLOAD change the list, and only
SHOW_MESSAGE adds to it. -/

namespace Sys2Proof.Machine

/-! ### Lists of placements -/

/-- Two placements of one level share no channel. -/
def Placement.sharesNoSlot (p q : Placement) : Prop := p.level = q.level → p.channels &&& q.channels = 0

/-- A list in which every placement holds a channel, and no slot is held by two. -/
def onePerSlot (ps : List Placement) : Prop :=
  (∀ p ∈ ps, p.channels ≠ 0) ∧ ps.Pairwise Placement.sharesNoSlot

section lists
variable {ps qs : List Placement} {p q : Placement} {level : Level} {set : ChannelSet}

theorem onePerSlot.sublist (h : onePerSlot ps) (sub : qs.Sublist ps) : onePerSlot qs :=
  ⟨fun p hp => h.1 p (sub.subset hp), h.2.sublist sub⟩

/-- Sets without a channel in common. -/
theorem noneInCommon {a b : ChannelSet} (h : ∀ n : Fin 8, setHas b n = true → setHas a n = false) : a &&& b = 0 := by
  refine BitVec.eq_of_getLsbD_eq fun i hi => ?_
  rw [BitVec.getLsbD_and, BitVec.ofNat_eq_ofNat, BitVec.getLsbD_zero]
  cases member : b.getLsbD i with
  | false => exact Bool.and_false _
  | true => rw [Bool.and_true]; exact h ⟨i, hi⟩ member

/-- Leaving a level takes a placement to no other level, and to no channel it did not stand on. -/
theorem leftBy_within (level : Level) (set : ChannelSet) (p : Placement) :
    (p.leftBy level set).level = p.level ∧ ∃ stay, (p.leftBy level set).channels = p.channels &&& stay := by
  unfold Placement.leftBy
  split
  · exact ⟨rfl, ~~~set, rfl⟩
  · exact ⟨rfl, BitVec.allOnes 8, BitVec.and_allOnes.symm⟩

theorem sharesNoSlot_leftBy (h : p.sharesNoSlot q) : (p.leftBy level set).sharesNoSlot (q.leftBy level set) := by
  obtain ⟨hp, stayP, channelsP⟩ := leftBy_within level set p
  obtain ⟨hq, stayQ, channelsQ⟩ := leftBy_within level set q
  intro same
  have apart : p.channels &&& q.channels = 0 := h (hp.symm.trans (same.trans hq))
  calc (p.leftBy level set).channels &&& (q.leftBy level set).channels
      = (p.channels &&& stayP) &&& (q.channels &&& stayQ) := by rw [channelsP, channelsQ]
    _ = (p.channels &&& q.channels) &&& (stayP &&& stayQ) := by ac_rfl
    _ = 0 := by rw [apart]; exact BitVec.zero_and

/-- Channels that leave a level leave the list in order, and the placements left with none are gone (R98). -/
theorem onePerSlot.leave (h : onePerSlot ps) (level : Level) (set : ChannelSet) :
    onePerSlot (leavePlacements level set ps) := by
  refine ⟨fun p hp => of_decide_eq_true (List.mem_filter.1 hp).2, List.Pairwise.filter _ ?_⟩
  exact List.pairwise_map.2 (h.2.imp sharesNoSlot_leftBy)

/-- A message placed finds its slots empty (R101). -/
theorem onePerSlot.place (h : onePerSlot ps) (p : Placement) : onePerSlot (overlaid p ps) := by
  obtain ⟨held, apart⟩ := h.leave p.level p.channels
  unfold overlaid
  split
  · exact h
  · next nonempty =>
    refine ⟨fun q hq => ?_, List.pairwise_append.2 ⟨apart, List.pairwise_singleton _ _, fun q hq x hx same => ?_⟩⟩
    · rcases List.mem_append.1 hq with old | new
      · exact held q old
      · rw [List.mem_singleton.1 new]
        exact nonempty
    · obtain rfl := List.mem_singleton.1 hx
      exact noneInCommon fun n member => leavePlacements_left (.inl member) q hq same

end lists

/-! ### The relation -/

/-- What led from s to t keeps one message per channel and level. -/
def KeepsPlacements (s t : State) : Prop := placementsSound s → placementsSound t

namespace KeepsPlacements

variable {s t u : State}

theorem refl (s : State) : KeepsPlacements s s := id

theorem trans (h : KeepsPlacements s t) (k : KeepsPlacements t u) : KeepsPlacements s u := fun hs => k (h hs)

/-- The same, the second part first: what it starts from then needs no name. -/
theorem after (k : KeepsPlacements t u) (h : KeepsPlacements s t) : KeepsPlacements s u := h.trans k

/-- The invariant speaks of the list alone. -/
theorem of_list (h : onePerSlot s.placements → onePerSlot t.placements) : KeepsPlacements s t := h

/-- Placements were at most taken off the list. -/
theorem of_sublist (h : t.placements.Sublist s.placements) : KeepsPlacements s t := of_list fun hs => hs.sublist h

theorem of_eq (h : t.placements = s.placements) : KeepsPlacements s t := of_sublist (h ▸ List.Sublist.refl _)

/-- The overlay is empty. -/
theorem of_none (h : t.placements = []) : KeepsPlacements s t := of_sublist (h ▸ List.nil_sublist _)

/-- A refusal changes nothing (R164). -/
theorem refused (result : Result) : KeepsPlacements s (refuse s result).left := of_eq (by rw [refuse_left])

/-- A refusal, or else a reply that keeps the relation. -/
theorem unlessRefused {check : Prop} [Decidable check] {result : Result} {b : Reply}
    (hb : KeepsPlacements s b.left) : KeepsPlacements s (if check then refuse s result else b).left :=
  check_left (refused result) hb

/-- An answer keeps it when the state answered does. -/
theorem answered {result : Result} {data : List Byte} (h : KeepsPlacements s t) :
    KeepsPlacements s (Reply.answer t result data).left := h

end KeepsPlacements

/-- Whatever keeps to a fire's width leaves the overlay. -/
theorem FiresOnly.keepsPlacements {s t : State} (h : FiresOnly s t) : KeepsPlacements s t := .of_eq h.placements

theorem ReadsOnly.placements {s t : State} (h : ReadsOnly s t) : t.placements = s.placements := by
  obtain ⟨_, _, _, h⟩ := h
  exact h.placements

/-! ### Messages (R98, R101, R104, R105) -/

theorem placed_keepsPlacements (p : Placement) (s : State) : KeepsPlacements s (placed p s) :=
  (placed_only p s).toFiresOnly.keepsPlacements.after (.of_list fun hs => hs.place p)

theorem cleared_keepsPlacements (l : Level) (set : ChannelSet) (s : State) : KeepsPlacements s (cleared l set s) :=
  (cleared_only l set s).toFiresOnly.keepsPlacements.after (.of_list fun hs => hs.leave l set)

theorem messageExpired_keepsPlacements (i : Nat) (s : State) : KeepsPlacements s (messageExpired i s) := by
  unfold messageExpired
  split
  · exact .refl s
  · next p _ =>
    split
    · exact .refl s
    · next d _ =>
      split
      · exact .of_sublist ((expired_only i p d s).placements ▸ List.eraseIdx_sublist _ _)
      · exact .refl s

theorem doShowMessage_keepsPlacements (tag confirm level mask : Byte) (duration : BitVec 16) (text : List Byte)
    (s : State) : KeepsPlacements s (doShowMessage tag confirm level mask duration text s).left := by
  unfold doShowMessage
  split
  · exact .refused _
  · refine .unlessRefused <| .unlessRefused <| .unlessRefused <| .unlessRefused <| .answered ?_
    rw [placed_eq]
    exact placed_keepsPlacements _ s

theorem doClearMessage_keepsPlacements (confirm level mask : Byte) (s : State) :
    KeepsPlacements s (doClearMessage confirm level mask s).left := by
  unfold doClearMessage
  split
  · exact .refused _
  · exact .unlessRefused <| .unlessRefused <| .answered <| cleared_keepsPlacements _ _ s

/-! ### The tracker into the engine, and cues (R7, R17, R23, R62) -/

theorem takePos_keepsPlacements (seq : Byte) (payload : List Byte) (s : State) :
    KeepsPlacements s (takePos seq payload s) := by
  unfold takePos
  split
  · exact .refl s
  · exact .of_eq (track_only _ s).placements

theorem silenceExpiry_keepsPlacements (s : State) : KeepsPlacements s (silenceExpiry s) := by
  unfold silenceExpiry
  split
  · split
    · exact .of_eq (trackDeadline_only _ s).placements
    · exact .refl s
  · exact .refl s

theorem horizonExpiry_keepsPlacements (s : State) : KeepsPlacements s (horizonExpiry s) := by
  unfold horizonExpiry
  split
  · split
    · exact .of_eq (trackDeadline_only _ s).placements
    · exact .refl s
  · exact .refl s

/-- The show in RUN, told, and armed (R136, R138). -/
theorem enterRun_keepsPlacements (previous : ShowState) (cause : ShowCause) (tag : Option Byte) (s : State) :
    KeepsPlacements s (enterRun previous cause tag s) := .of_eq enterRun_only.placements

theorem takeGo_keepsPlacements (payload : List Byte) (s : State) : KeepsPlacements s (takeGo payload s) := by
  have ignored := fun target back => (ignoreGo_only .state target back (found s) s).toFiresOnly.keepsPlacements
  unfold takeGo
  dsimp only
  split
  · exact (goInRun_only _ _ _ s).keepsPlacements
  · split
    · exact (goInRun_only _ _ _ _).keepsPlacements.after (enterRun_keepsPlacements .hold .go none s)
    · exact ignored _ _
  · exact ignored _ _
  · exact ignored _ _

/-! ### Changes of show state, and the restart (R108, R137 to R141) -/

theorem stopShow_keepsPlacements (tag : Byte) (s : State) : KeepsPlacements s (stopShow tag s) :=
  .of_eq (stopShow_blocks tag s).1.placements

/-- UNLOAD leaves the messages of level 3 (R108). -/
theorem unloadShow_keepsPlacements (tag : Byte) (s : State) : KeepsPlacements s (unloadShow tag s) := by
  obtain ⟨width, -⟩ := unloadShow_blocks tag s
  have kept : (unloadShow tag s).placements = s.placements.filter (fun p => p.level = .alert) := width.placements
  refine .of_sublist ?_
  rw [kept]
  exact List.filter_sublist

theorem restartEffect_keepsPlacements (s : State) : KeepsPlacements s (restartEffect s) := by
  have dark := forChannels_keeps CaptionsOnly .refl (fun _ _ _ => .trans) _ darkCaption_only (restarted s)
  unfold restartEffect
  dsimp only
  split
  · split
    · exact .of_none dark.placements
    · exact .of_none ((showNotice_only _ _ _ _).placements.trans dark.placements)
  · exact .refl s

/-! ### Configuration (R110, R167) -/

theorem silenced_keepsPlacements (n : Fin 8) (s : State) : KeepsPlacements s (silenced n s) :=
  .of_list fun hs => hs.leave .alert (setWith 0 n)

/-- A disabled channel leaves its level-3 placement (R110). -/
theorem channelDisabled_keepsPlacements (n : Fin 8) (s : State) : KeepsPlacements s (channelDisabled n s) := by
  cases tested : withheld s n with
  | false =>
    rw [channelDisabled_untested tested]
    exact silenced_keepsPlacements n s
  | true =>
    obtain ⟨r, -, -, ended⟩ := channelDisabled_tested tested
    have stopped : KeepsPlacements (silenced n s) (endTest r .disabled (silenced n s)) :=
      .of_eq (endTest_only r .disabled _).placements
    rw [ended]
    exact (silenced_keepsPlacements n s).trans stopped

theorem channelChanged_keepsPlacements (old : Configuration) (n : Fin 8) (s : State) :
    KeepsPlacements s (channelChanged old n s) := by
  have disabled : ∀ a b, KeepsPlacements s (disabledBy a b n s) := fun a b => by
    unfold disabledBy
    split
    · exact channelDisabled_keepsPlacements n s
    · exact .refl s
  rw [channelChanged_parts]
  exact ((readdressed_captionsOnly _ _ n _).trans (unmutedBy_captionsOnly _ _ n _)).toFiresOnly.keepsPlacements.after
    (disabled _ _)

theorem configTaken_keepsPlacements (pairs : List ConfigPair) (s : State) :
    KeepsPlacements s (configTaken pairs s) := by
  have configured : KeepsPlacements s (configured pairs s) := .of_eq rfl
  have changed : KeepsPlacements s (reacted pairs s) := configured.trans <|
    forChannels_keeps KeepsPlacements .refl (fun _ _ _ => .trans) _ (channelChanged_keepsPlacements s.config) _
  rw [configTaken_eq]
  split
  · exact changed.trans (arm_only _).keepsPlacements
  · exact changed

/-! ### Requests, by the block that answers (R164) -/

theorem doSetConfig_keepsPlacements (pairs : List ConfigPair) (s : State) :
    KeepsPlacements s (doSetConfig pairs s).left := by
  unfold doSetConfig
  refine .unlessRefused ?_
  split
  · exact .refl s
  · exact .unlessRefused (.unlessRefused (configTaken_keepsPlacements pairs s))

theorem doCommitConfig_keepsPlacements (s : State) : KeepsPlacements s (doCommitConfig s).left := by
  unfold doCommitConfig
  split <;> exact .of_eq rfl

theorem doStart_keepsPlacements (tag force : Byte) (s : State) : KeepsPlacements s (doStart tag force s).left :=
  .unlessRefused <| .unlessRefused <| check_left (a := .answer s .missing _) (KeepsPlacements.refl s) <|
    enterRun_keepsPlacements .preset .start (some tag) s

theorem doHold_keepsPlacements (tag : Byte) (s : State) : KeepsPlacements s (doHold tag s).left :=
  .unlessRefused <| .of_eq (showNotice_only .run .hold (some tag) _).placements

theorem doSetPointer_keepsPlacements (label : Label) (s : State) : KeepsPlacements s (doSetPointer label s).left := by
  unfold doSetPointer
  refine .unlessRefused ?_
  split
  · exact .refused _
  · next i _ =>
    have placed : FiresOnly s (pointerSet i s) :=
      ((FiresOnly.firings s _).trans (placePointer_only i _)).trans (flush_only _)
    exact .answered placed.keepsPlacements

theorem doProgramStore_keepsPlacements (tag : Byte) (address : BitVec 32) (data : List Byte) (s : State) :
    KeepsPlacements s (doProgramStore tag address data s).left := by
  have checked : KeepsPlacements s (checkReads s) := .of_eq (readUnits_only _ _ s).placements
  exact .unlessRefused <| .unlessRefused <| checked.trans <| .unlessRefused <| .unlessRefused <| .of_eq rfl

theorem doEraseSector_keepsPlacements (tag : Byte) (sector : BitVec 16) (s : State) :
    KeepsPlacements s (doEraseSector tag sector s).left := by
  have checked : KeepsPlacements s (checkReads s) := .of_eq (readUnits_only _ _ s).placements
  exact .unlessRefused <| .unlessRefused <| checked.trans <| .unlessRefused <| .of_eq rfl

theorem doCensus_keepsPlacements (tag : Byte) (s : State) : KeepsPlacements s (doCensus tag s).left :=
  .unlessRefused <| .unlessRefused <| .of_eq (offerTool_only _ _).placements

theorem doScreenTest_keepsPlacements (tag channel : Byte) (count : BitVec 16) (length : Byte) (gap : BitVec 16)
    (mode : Byte) (s : State) : KeepsPlacements s (doScreenTest tag channel count length gap mode s).left := by
  unfold doScreenTest
  split
  · exact check_left (.unlessRefused <| .unlessRefused <| .of_eq (offerTool_only _ _).placements)
      (.refused _)
  · exact .refused _

theorem doStopTest_keepsPlacements (s : State) : KeepsPlacements s (doStopTest s).left := by
  unfold doStopTest
  split
  · exact .of_eq (endTest_only _ _ s).placements
  · exact .refl s

theorem replyOf_keepsPlacements (h : Head) (r : Request) (s : State) : KeepsPlacements s (replyOf h r s).left := by
  cases r with
  | identify | readConfig | readEcc | readCensus => exact .refl s
  | readStatus | readCounters | clearEcc => exact .of_eq rfl
  | setConfig pairs => exact doSetConfig_keepsPlacements pairs s
  | commitConfig => exact doCommitConfig_keepsPlacements s
  | loadAct act => exact .unlessRefused <| .unlessRefused <| .unlessRefused <| .unlessRefused <| .of_eq rfl
  | start force => exact doStart_keepsPlacements h.tag force s
  | hold => exact doHold_keepsPlacements h.tag s
  | resume => exact .unlessRefused (enterRun_keepsPlacements .hold .resume (some h.tag) s)
  | stop => exact .unlessRefused (.answered (stopShow_keepsPlacements h.tag s))
  | unload => exact .unlessRefused <| .unlessRefused <| .answered (unloadShow_keepsPlacements h.tag s)
  | setPointer label => exact doSetPointer_keepsPlacements label s
  | showMessage level mask duration text =>
    exact doShowMessage_keepsPlacements h.tag h.confirm level mask duration text s
  | clearMessage level mask => exact doClearMessage_keepsPlacements h.confirm level mask s
  | readStore address length => exact .unlessRefused <| .unlessRefused <| .unlessRefused <| .of_eq rfl
  | programStore address data => exact doProgramStore_keepsPlacements h.tag address data s
  | eraseSector sector => exact doEraseSector_keepsPlacements h.tag sector s
  | verifyAct act => exact .unlessRefused <| .unlessRefused <| .of_eq rfl
  | checksum address length => exact .unlessRefused <| .unlessRefused <| .of_eq rfl
  | protectAct act => exact .unlessRefused <| .unlessRefused <| .unlessRefused <| .of_eq rfl
  | unprotectAct act => exact .unlessRefused <| .unlessRefused <| .unlessRefused <| .of_eq rfl
  | lockShow => exact .unlessRefused <| .of_eq rfl
  | census => exact doCensus_keepsPlacements h.tag s
  | screenTest channel count length gap mode => exact doScreenTest_keepsPlacements h.tag channel count length gap mode s
  | stopTest => exact doStopTest_keepsPlacements s
  | restart => exact .unlessRefused <| .of_eq rfl

/-! ### Completions (R41, R119 to R128) -/

/-- The OP_DONE of an operation leaves the overlay. -/
theorem opDone_placements (op : OpName) (tag : Byte) (result : DoneResult) (data : List Byte) (s : State) :
    (opDone op tag result data s).placements = s.placements := (opDone_only op tag result data s).placements

theorem programCompleted_keepsPlacements (s : State) : KeepsPlacements s (programCompleted s) := by
  unfold programCompleted
  split
  · exact .of_eq (opDone_placements _ _ _ _ _)
  · exact .refl s

theorem eraseCompleted_keepsPlacements (s : State) : KeepsPlacements s (eraseCompleted s) := by
  unfold eraseCompleted
  split
  · split
    · exact .refl s
    · exact .of_eq (opDone_placements _ _ _ _ _)
  · exact .refl s

theorem protectionCompleted_keepsPlacements (s : State) : KeepsPlacements s (protectionCompleted s) := by
  unfold protectionCompleted
  split
  · exact .of_eq (opDone_placements _ _ _ _ _)
  · exact .of_eq (opDone_placements _ _ _ _ _)
  · exact .refl s

theorem finishReads_keepsPlacements (reader : Reader) {finish : Option Nat → State → State}
    (hf : ∀ failure s, KeepsPlacements s (finish failure s)) (s : State) :
    KeepsPlacements s (finishReads reader finish s) := by
  unfold finishReads
  dsimp only
  split
  · exact .refl s
  · exact KeepsPlacements.trans (.of_eq (readOn_only _ _ s).placements) ((hf _ _).after (.of_eq rfl))

theorem verifyCompleted_keepsPlacements (s : State) : KeepsPlacements s (verifyCompleted s) := by
  unfold verifyCompleted
  split
  · refine finishReads_keepsPlacements _ (fun failure t => ?_) s
    unfold verifyDone
    split <;> exact .of_eq (opDone_placements _ _ _ _ _)
  · exact .refl s

theorem checksumCompleted_keepsPlacements (s : State) : KeepsPlacements s (checksumCompleted s) := by
  unfold checksumCompleted
  split
  · refine finishReads_keepsPlacements _ (fun failure t => ?_) s
    unfold checksumDone
    split <;> exact .of_eq (opDone_placements _ _ _ _ _)
  · exact .refl s

/-- A load that succeeds leaves the overlay (R127). -/
theorem loadSucceeds_keepsPlacements (tag : Byte) (act : Nat) (region : Region) (langs : List Code) (beat : Nat)
    (cues : List Cue) (s : State) : KeepsPlacements s (loadSucceeds tag act region langs beat cues s) := by
  unfold loadSucceeds
  extract_lets s1 s2
  have loaded : s1.placements = s.placements := rfl
  have told : KeepsPlacements s s2 := .of_eq ((opDone_placements _ _ _ _ _).trans loaded)
  have emptied := (emptyChannels_only .blank s2).toScreensOnly.trans (stage_only _)
  exact (emptied.toFiresOnly.trans (showNotice_only _ _ _ _).toFiresOnly).keepsPlacements.after told

theorem loadEnds_keepsPlacements (tag : Byte) (act : Nat) (finish : LoadEnd) (s : State) :
    KeepsPlacements s (loadEnds tag act finish s) := by
  have failed : ∀ result data, KeepsPlacements s (loadFails tag result data s) :=
    fun _ _ => .of_eq (opDone_placements _ _ _ _ _)
  cases finish with
  | success region langs beat cues => exact loadSucceeds_keepsPlacements tag act region langs beat cues s
  | noAct => exact failed _ _
  | corrupt index => exact failed _ _
  | check => exact failed _ _
  | ecc a => exact failed _ _

theorem loadCompleted_keepsPlacements (s : State) : KeepsPlacements s (loadCompleted s) := by
  unfold loadCompleted
  split
  · exact finishReads_keepsPlacements _ (fun failure t => loadEnds_keepsPlacements _ _ _ t) s
  · exact .refl s

theorem stagingReadEnded_keepsPlacements (s : State) : KeepsPlacements s (stagingReadEnded s) := by
  have taken : ∀ r failure text u, FiresOnly u (takeReadEnd r failure text u) := fun r failure text u =>
    (resultTaken_blocks r _ u).1.trans (takeReadEnd_only r failure text u).toFiresOnly
  unfold stagingReadEnded
  split
  · split
    · refine ((taken _ _ _ _).trans (stage_only _).toFiresOnly).keepsPlacements.after (.of_eq ?_)
      exact (readUnits_only .staging _ s).placements
    · exact .refl s
  · exact .refl s

/-- Every block's operations keep one message per channel and level. -/
theorem keepsPlacements_rules : StepRules KeepsPlacements where
  refl := .refl
  trans := .trans
  pending _ _ := .of_eq rfl
  clock _ _ := .of_eq rfl
  faults _ _ := .of_eq rfl
  management _ _ := .of_eq rfl
  link _ _ := .of_eq rfl
  tools _ _ := .of_eq rfl
  screens h := h.keepsPlacements
  reads h := .of_eq h.placements
  reply := replyOf_keepsPlacements
  pos := takePos_keepsPlacements
  go := takeGo_keepsPlacements
  silence := silenceExpiry_keepsPlacements
  horizon := horizonExpiry_keepsPlacements
  mark s := (markExpired_only s).keepsPlacements
  follow s := (followExpired_only s).keepsPlacements
  watch s := (watchExpired_only s).keepsPlacements
  message := messageExpired_keepsPlacements
  staging := stagingReadEnded_keepsPlacements
  program := programCompleted_keepsPlacements
  erase := eraseCompleted_keepsPlacements
  verify := verifyCompleted_keepsPlacements
  checksum := checksumCompleted_keepsPlacements
  protection := protectionCompleted_keepsPlacements
  load := loadCompleted_keepsPlacements
  restart := restartEffect_keepsPlacements
  powerFail _ _ := .of_none rfl
  powerUp _ _ _ := .of_none rfl

end Sys2Proof.Machine

namespace Sys2Proof.Proofs

open Sys2Proof.Machine

/-- Settles O28: a message placed first takes its slots from older ones, every other operation leaves the overlay or
takes from it. -/
theorem placementsStaySound : Obligations.PlacementsStaySound :=
  fun _ _ hs hstep => keepsPlacements_rules.step hstep hs

end Sys2Proof.Proofs
end

section
/-! The store's bytes, flags, lock and operation in flight through every block's operations (R112, R119, R130): what each
leads to, so that bytes and lock stay sound. A restart and power release the lock, so that no relation which guards it
satisfies StepRules: a command either keeps the relation or resets the store's controller. -/

namespace Sys2Proof.Machine

/-! ### The relation -/

/-- What led from s to t keeps the bytes in their form, and an engaged lock with the flags it guards. -/
structure KeepsStore (s t : State) : Prop where
  cells : cellsSound s → cellsSound t
  lock : lockSound s → lockSound t
  guards : lockSound s → s.store.lock = true → t.store.lock = true ∧ t.store.protection = s.store.protection

/-- The store's controller was reset: no operation in flight, no lock, and without an update in flight the flags as they
were (R131, R132, R141). -/
structure ResetsStore (s t : State) : Prop where
  flight : t.store.flight = none
  lock : t.store.lock = false
  cells : cellsSound s → t.store.cells.wf = true
  protection : s.store.updating = false → t.store.protection = s.store.protection

theorem updating_of_none {st : Store} (h : st.flight = none) : st.updating = false := by rw [Store.updating, h]

theorem updating_congr {a b : Store} (h : b.flight = a.flight) : b.updating = a.updating := by
  rw [Store.updating, Store.updating, h]

/-- With no operation in flight only the form of the bytes matters. -/
theorem cellsSound_of_none {s : State} (hf : s.store.flight = none) (hc : s.store.cells.wf = true) : cellsSound s :=
  ⟨hc, fun _ _ _ program => absurd (hf.symm.trans program) (by simp)⟩

theorem cellsSound_congr {s t : State} (hc : t.store.cells = s.store.cells) (hf : t.store.flight = s.store.flight)
    (hs : cellsSound s) : cellsSound t := by
  unfold cellsSound
  rw [hc, hf]
  exact hs

namespace KeepsStore

variable {s t u : State}

/-- Bytes, flags, lock and operation in flight as before. -/
theorem of_same (hc : t.store.cells = s.store.cells) (hp : t.store.protection = s.store.protection)
    (hl : t.store.lock = s.store.lock) (hf : t.store.flight = s.store.flight) : KeepsStore s t where
  cells := cellsSound_congr hc hf
  lock hs locked := by
    rw [updating_congr hf]
    exact hs (hl ▸ locked)
  guards _ locked := ⟨hl.trans locked, hp⟩

theorem of_store (h : t.store = s.store) : KeepsStore s t := of_same (by rw [h]) (by rw [h]) (by rw [h]) (by rw [h])

theorem refl (s : State) : KeepsStore s s := of_store rfl

theorem trans (h : KeepsStore s t) (k : KeepsStore t u) : KeepsStore s u where
  cells hs := k.cells (h.cells hs)
  lock hs := k.lock (h.lock hs)
  guards hs locked := by
    obtain ⟨still, flags⟩ := h.guards hs locked
    obtain ⟨last, same⟩ := k.guards (h.lock hs) still
    exact ⟨last, same.trans flags⟩

/-- The same, the second part first: what it starts from then needs no name. -/
theorem after (k : KeepsStore t u) (h : KeepsStore s t) : KeepsStore s u := h.trans k

/-- An operation begun: a program lies inside the store, and no update begins under the lock (R119, R128). -/
theorem begun {f : Flight} (hc : t.store.cells = s.store.cells) (hp : t.store.protection = s.store.protection)
    (hl : t.store.lock = s.store.lock) (hf : t.store.flight = some f)
    (fits : ∀ a data, f.op = .program a data → a + data.length ≤ Config.storeSize)
    (unlocked : s.store.lock = true → t.store.updating = false) : KeepsStore s t where
  cells hs := by
    refine ⟨hc ▸ hs.1, fun a data tag program => fits a data ?_⟩
    rw [Option.some.inj (hf.symm.trans program)]
  lock _ locked := unlocked (hl ▸ locked)
  guards _ locked := ⟨hl.trans locked, hp⟩

/-- The operation in flight ended: only a protection update has touched the flags (R118, R128). -/
theorem ended (hf : t.store.flight = none) (hl : t.store.lock = s.store.lock)
    (hc : cellsSound s → t.store.cells.wf = true)
    (hp : s.store.updating = false → t.store.protection = s.store.protection) : KeepsStore s t where
  cells hs := cellsSound_of_none hf (hc hs)
  lock _ _ := updating_of_none hf
  guards hs locked := ⟨hl.trans locked, hp (hs locked)⟩

/-- A refusal changes nothing (R164). -/
theorem refused (result : Result) : KeepsStore s (refuse s result).left := of_store (by rw [refuse_left])

/-- A refusal, or else a reply that keeps the relation where the check has failed. -/
theorem unlessRefused {check : Prop} [Decidable check] {result : Result} {b : Reply}
    (hb : ¬ check → KeepsStore s b.left) : KeepsStore s (if check then refuse s result else b).left := by
  split
  · exact refused _
  · next passed => exact hb passed

/-- An answer keeps it when the state answered does. -/
theorem answered {result : Result} {data : List Byte} (h : KeepsStore s t) :
    KeepsStore s (Reply.answer t result data).left := h

end KeepsStore

theorem FiresOnly.keepsStore {s t : State} (h : FiresOnly s t) : KeepsStore s t := by
  obtain ⟨queue, suspended, store⟩ := h.store
  exact .of_same (by rw [store]) (by rw [store]) (by rw [store]) (by rw [store])

theorem ReactsOnly.keepsStore {s t : State} (h : ReactsOnly s t) : KeepsStore s t := by
  obtain ⟨placements, tools, only⟩ := h
  exact only.keepsStore.after (.of_store rfl)

/-- What a reader's own fields leave of the store. -/
theorem ReadsOnly.store {s t : State} (h : ReadsOnly s t) :
    t.store = { s.store with trap := t.store.trap, region := t.store.region, reads := t.store.reads } := by
  obtain ⟨trap, region, reads, only⟩ := h
  have store := only.stores
  rw [withStore_store] at store
  rw [store]

theorem ReadsOnly.keepsStore {s t : State} (h : ReadsOnly s t) : KeepsStore s t := by
  have store := h.store
  exact .of_same (by rw [store]) (by rw [store]) (by rw [store]) (by rw [store])

/-! ### The tracker into the engine, and cues (R7, R17, R23, R62) -/

theorem takePos_keepsStore (seq : Byte) (payload : List Byte) (s : State) : KeepsStore s (takePos seq payload s) := by
  unfold takePos
  split
  · exact .refl s
  · exact (track_only _ s).keepsStore.after (.of_store rfl)

theorem trackDeadline_keepsStore (out : Tracker × List Notice × Bool) (s : State) :
    KeepsStore s (trackDeadline out s) := (trackDeadline_only out s).keepsStore.after (.of_store rfl)

theorem silenceExpiry_keepsStore (s : State) : KeepsStore s (silenceExpiry s) := by
  unfold silenceExpiry
  split
  · split
    · exact trackDeadline_keepsStore _ s
    · exact .refl s
  · exact .refl s

theorem horizonExpiry_keepsStore (s : State) : KeepsStore s (horizonExpiry s) := by
  unfold horizonExpiry
  split
  · split
    · exact trackDeadline_keepsStore _ s
    · exact .refl s
  · exact .refl s

/-- The show in RUN, told, and armed (R136, R138). -/
theorem enterRun_keepsStore (previous : ShowState) (cause : ShowCause) (tag : Option Byte) (s : State) :
    KeepsStore s (enterRun previous cause tag s) := enterRun_only.keepsStore.after (.of_store rfl)

theorem takeGo_keepsStore (payload : List Byte) (s : State) : KeepsStore s (takeGo payload s) := by
  have ignored := fun target back => (ignoreGo_only .state target back (found s) s).toFiresOnly.keepsStore
  unfold takeGo
  dsimp only
  split
  · exact (goInRun_only _ _ _ s).keepsStore
  · split
    · exact (goInRun_only _ _ _ _).keepsStore.after (enterRun_keepsStore .hold .go none s)
    · exact ignored _ _
  · exact ignored _ _
  · exact ignored _ _

theorem messageExpired_keepsStore (i : Nat) (s : State) : KeepsStore s (messageExpired i s) := by
  unfold messageExpired
  split
  · exact .refl s
  · next p _ =>
    split
    · exact .refl s
    · next d _ =>
      split
      · exact (expired_only i p d s).toFiresOnly.keepsStore.after (.of_store rfl)
      · exact .refl s

/-! ### Requests of the other blocks (R164) -/

theorem doSetConfig_keepsStore (pairs : List ConfigPair) (s : State) : KeepsStore s (doSetConfig pairs s).left := by
  unfold doSetConfig
  refine .unlessRefused fun _ => ?_
  split
  · exact .refl s
  · exact .unlessRefused fun _ => .unlessRefused fun _ => (configTaken_only pairs s).keepsStore.after (.of_store rfl)

theorem doCommitConfig_keepsStore (s : State) : KeepsStore s (doCommitConfig s).left := by
  unfold doCommitConfig
  split <;> exact .of_store rfl

theorem doStart_keepsStore (tag force : Byte) (s : State) : KeepsStore s (doStart tag force s).left :=
  .unlessRefused fun _ => .unlessRefused fun _ => check_left (a := .answer s .missing _) (KeepsStore.refl s) <|
    enterRun_keepsStore .preset .start (some tag) s

theorem doHold_keepsStore (tag : Byte) (s : State) : KeepsStore s (doHold tag s).left :=
  .unlessRefused fun _ => .of_store (showNotice_only .run .hold (some tag) _).stores

theorem stopShow_keepsStore (tag : Byte) (s : State) : KeepsStore s (stopShow tag s) :=
  (stopShow_blocks tag s).1.keepsStore.after (.of_store rfl)

theorem unloadShow_keepsStore (tag : Byte) (s : State) : KeepsStore s (unloadShow tag s) := by
  obtain ⟨width, -⟩ := unloadShow_blocks tag s
  exact width.keepsStore.after (.of_same rfl rfl rfl rfl)

theorem doSetPointer_keepsStore (label : Label) (s : State) : KeepsStore s (doSetPointer label s).left := by
  unfold doSetPointer
  refine .unlessRefused fun _ => ?_
  split
  · exact .refused _
  · next i _ =>
    have placed : FiresOnly s (pointerSet i s) :=
      ((FiresOnly.firings s _).trans (placePointer_only i _)).trans (flush_only _)
    exact placed.keepsStore

theorem doShowMessage_keepsStore (tag confirm level mask : Byte) (duration : BitVec 16) (text : List Byte)
    (s : State) : KeepsStore s (doShowMessage tag confirm level mask duration text s).left := by
  unfold doShowMessage
  split
  · exact .refused _
  · refine .unlessRefused fun _ => .unlessRefused fun _ => .unlessRefused fun _ => .unlessRefused fun _ => ?_
    dsimp only [Reply.left]
    rw [placed_eq]
    exact (placed_only _ s).toFiresOnly.keepsStore.after (.of_store rfl)

theorem doClearMessage_keepsStore (confirm level mask : Byte) (s : State) :
    KeepsStore s (doClearMessage confirm level mask s).left := by
  unfold doClearMessage
  split
  · exact .refused _
  · exact .unlessRefused fun _ => .unlessRefused fun _ => (cleared_only _ _ s).toFiresOnly.keepsStore.after (.of_store rfl)

theorem doCensus_keepsStore (tag : Byte) (s : State) : KeepsStore s (doCensus tag s).left :=
  .unlessRefused fun _ => .unlessRefused fun _ => .of_store (offerTool_only _ _).stores

theorem doScreenTest_keepsStore (tag channel : Byte) (count : BitVec 16) (length : Byte) (gap : BitVec 16)
    (mode : Byte) (s : State) : KeepsStore s (doScreenTest tag channel count length gap mode s).left := by
  unfold doScreenTest
  split
  · exact check_left (.unlessRefused fun _ => .unlessRefused fun _ => .of_store (offerTool_only _ _).stores) (.refused _)
  · exact .refused _

theorem doStopTest_keepsStore (s : State) : KeepsStore s (doStopTest s).left := by
  unfold doStopTest
  split
  · exact .of_store (endTest_only _ _ s).stores
  · exact .refl s

/-! ### Requests of the store (R116 to R130) -/

/-- A verify, checksum or load accepted. -/
theorem accept_keepsStore {op : StoreOp} (reads : op.carried = false) (tag : Byte) (s : State) :
    KeepsStore s (accept op tag s).left := by
  cases op with
  | verify act | checksum a n | load act => exact .begun rfl rfl rfl rfl nofun fun _ => rfl
  | program a data | erase sector | protect act | unprotect act => exact absurd reads Bool.noConfusion

/-- A program's run lies inside the store (R119). -/
theorem runInPage_inside {a n : Nat} (h : runInPage a n = true) : a + n ≤ Config.storeSize := by
  simp only [runInPage, Bool.and_eq_true, decide_eq_true_eq] at h
  exact h.2

theorem checkReads_keepsStore (s : State) : KeepsStore s (checkReads s) := (readUnits_only _ _ s).keepsStore

theorem doProgramStore_keepsStore (tag : Byte) (address : BitVec 32) (data : List Byte) (s : State) :
    KeepsStore s (doProgramStore tag address data s).left := by
  refine .unlessRefused fun inPage => .unlessRefused fun _ => (checkReads_keepsStore s).trans <|
    .unlessRefused fun _ => .unlessRefused fun _ => .begun rfl rfl rfl rfl ?_ fun _ => rfl
  rintro a d ⟨⟩
  exact runInPage_inside (not_not.1 inPage)

theorem doEraseSector_keepsStore (tag : Byte) (sector : BitVec 16) (s : State) :
    KeepsStore s (doEraseSector tag sector s).left :=
  .unlessRefused fun _ => .unlessRefused fun _ => (checkReads_keepsStore s).trans <| .unlessRefused fun _ =>
    .begun rfl rfl rfl rfl nofun fun _ => rfl

/-- An update of the flags begins only without the lock (R128). -/
theorem doProtection_keepsStore (op : Nat → StoreOp) (program : ∀ act a data, op act ≠ .program a data) (tag act : Byte)
    (s : State) : KeepsStore s (doProtection op tag act s).left :=
  .unlessRefused fun _ => .unlessRefused fun unlocked => .unlessRefused fun _ =>
    .begun rfl rfl rfl rfl (fun a data h => absurd h (program _ a data)) fun locked => absurd locked unlocked

/-- LOCK_SHOW engages the lock with no update in flight (R130). -/
theorem doLockShow_keepsStore (s : State) : KeepsStore s (doLockShow s).left :=
  .unlessRefused fun idle => ⟨id, fun _ _ => Bool.eq_false_iff.2 idle, fun _ _ => ⟨rfl, rfl⟩⟩

/-- RESTART keeps an operation it carries through and ends any other (R132). -/
theorem doRestart_keepsStore (confirm : Byte) (s : State) : KeepsStore s (doRestart confirm s).left := by
  refine .unlessRefused fun _ => ?_
  have kept : ∀ f, s.store.flight.filter (fun f => f.op.carried) = some f → s.store.flight = some f := fun f h =>
    (Option.filter_eq_some_iff.1 h).1
  refine ⟨fun hs => ⟨hs.1, fun a data tag program => hs.2 a data tag (kept _ program)⟩, fun hs locked => ?_, fun _ locked =>
    ⟨locked, rfl⟩⟩
  have idle := hs locked
  change Store.updating { s.store with flight := _, .. } = false
  cases hf : s.store.flight.filter (fun f => f.op.carried) with
  | none => rfl
  | some f =>
    rw [← idle]
    exact updating_congr (kept f hf).symm

theorem replyOf_keepsStore (h : Head) (r : Request) (s : State) : KeepsStore s (replyOf h r s).left := by
  cases r with
  | identify | readConfig | readEcc | readCensus | readStatus | readCounters => exact .of_store rfl
  | clearEcc => exact .of_same rfl rfl rfl rfl
  | setConfig pairs => exact doSetConfig_keepsStore pairs s
  | commitConfig => exact doCommitConfig_keepsStore s
  | loadAct act =>
    exact .unlessRefused fun _ => .unlessRefused fun _ => .unlessRefused fun _ => .unlessRefused fun _ =>
      (accept_keepsStore (op := .load act.toNat) rfl h.tag _).after (.of_store rfl)
  | start force => exact doStart_keepsStore h.tag force s
  | hold => exact doHold_keepsStore h.tag s
  | resume => exact .unlessRefused fun _ => enterRun_keepsStore .hold .resume (some h.tag) s
  | stop => exact .unlessRefused fun _ => .answered (stopShow_keepsStore h.tag s)
  | unload => exact .unlessRefused fun _ => .unlessRefused fun _ => .answered (unloadShow_keepsStore h.tag s)
  | setPointer label => exact doSetPointer_keepsStore label s
  | showMessage level mask duration text => exact doShowMessage_keepsStore h.tag h.confirm level mask duration text s
  | clearMessage level mask => exact doClearMessage_keepsStore h.confirm level mask s
  | readStore address length =>
    exact .unlessRefused fun _ => .unlessRefused fun _ => .unlessRefused fun _ => .of_same rfl rfl rfl rfl
  | programStore address data => exact doProgramStore_keepsStore h.tag address data s
  | eraseSector sector => exact doEraseSector_keepsStore h.tag sector s
  | verifyAct act =>
    exact .unlessRefused fun _ => .unlessRefused fun _ => accept_keepsStore (op := .verify act.toNat) rfl h.tag s
  | checksum address length =>
    exact .unlessRefused fun _ => .unlessRefused fun _ =>
      accept_keepsStore (op := .checksum address.toNat length.toNat) rfl h.tag s
  | protectAct act => exact doProtection_keepsStore .protect nofun h.tag act s
  | unprotectAct act => exact doProtection_keepsStore .unprotect nofun h.tag act s
  | lockShow => exact doLockShow_keepsStore s
  | census => exact doCensus_keepsStore h.tag s
  | screenTest channel count length gap mode => exact doScreenTest_keepsStore h.tag channel count length gap mode s
  | stopTest => exact doStopTest_keepsStore s
  | restart => exact doRestart_keepsStore h.confirm s

/-! ### Completions (R41, R119 to R128) -/

/-- The OP_DONE of an operation leaves the store. -/
theorem opDone_store (op : OpName) (tag : Byte) (result : DoneResult) (data : List Byte) (s : State) :
    (opDone op tag result data s).store = s.store := (opDone_only op tag result data s).stores

theorem opDone_keepsStore (op : OpName) (tag : Byte) (result : DoneResult) (data : List Byte) (s : State) :
    KeepsStore s (opDone op tag result data s) := .of_store (opDone_store _ _ _ _ _)

theorem programCompleted_keepsStore (s : State) : KeepsStore s (programCompleted s) := by
  unfold programCompleted
  split
  · next a data tag hf =>
    exact (opDone_keepsStore _ _ _ _ _).after <| .ended rfl rfl
      (fun hs => Cells.program_wf data _ a (hs.2 a data tag hf) hs.1) fun _ => rfl
  · exact .refl s

theorem eraseCompleted_keepsStore (s : State) : KeepsStore s (eraseCompleted s) := by
  unfold eraseCompleted
  split
  · split
    · exact .refl s
    · exact (opDone_keepsStore _ _ _ _ _).after <| .ended rfl rfl (fun hs => Cells.eraseSector_wf _ _ hs.1) fun _ => rfl
  · exact .refl s

/-- Only with an update in flight does its completion touch the flags (R128, R130). -/
theorem protectionCompleted_keepsStore (s : State) : KeepsStore s (protectionCompleted s) := by
  have taken : ∀ act on, s.store.updating = true → KeepsStore s (protectionTaken act on s) := fun act on updating =>
    .ended rfl rfl (fun hs => hs.1) fun idle => absurd (updating.symm.trans idle) (by decide)
  unfold protectionCompleted
  split
  · next act tag hf => exact (opDone_keepsStore _ _ _ _ _).after (taken act true (by rw [Store.updating, hf]))
  · next act tag hf => exact (opDone_keepsStore _ _ _ _ _).after (taken act false (by rw [Store.updating, hf]))
  · exact .refl s

theorem landed_keepsStore (s : State) : KeepsStore s (landed s) := .ended rfl rfl (fun hs => hs.1) fun _ => rfl

theorem finishReads_keepsStore (reader : Reader) {finish : Option Nat → State → State}
    (hf : ∀ failure s, KeepsStore s (finish failure s)) (s : State) :
    KeepsStore s (finishReads reader finish s) := by
  unfold finishReads
  dsimp only
  split
  · exact .refl s
  · exact (hf _ _).after ((landed_keepsStore _).after (readOn_only _ _ s).keepsStore)

theorem verifyCompleted_keepsStore (s : State) : KeepsStore s (verifyCompleted s) := by
  unfold verifyCompleted
  split
  · refine finishReads_keepsStore _ (fun failure t => ?_) s
    unfold verifyDone
    split <;> exact opDone_keepsStore _ _ _ _ _
  · exact .refl s

theorem checksumCompleted_keepsStore (s : State) : KeepsStore s (checksumCompleted s) := by
  unfold checksumCompleted
  split
  · refine finishReads_keepsStore _ (fun failure t => ?_) s
    unfold checksumDone
    split <;> exact opDone_keepsStore _ _ _ _ _
  · exact .refl s

theorem loadSucceeds_keepsStore (tag : Byte) (act : Nat) (region : Region) (langs : List Code) (beat : Nat)
    (cues : List Cue) (s : State) : KeepsStore s (loadSucceeds tag act region langs beat cues s) := by
  unfold loadSucceeds
  extract_lets s1 s2
  have loaded : KeepsStore s s1 := .of_same rfl rfl rfl rfl
  have told : KeepsStore s1 s2 := opDone_keepsStore _ _ _ _ _
  have emptied := (emptyChannels_only .blank s2).toScreensOnly.trans (stage_only _)
  exact (loaded.trans told).trans (emptied.toFiresOnly.trans (showNotice_only _ _ _ _).toFiresOnly).keepsStore

theorem loadEnds_keepsStore (tag : Byte) (act : Nat) (finish : LoadEnd) (s : State) :
    KeepsStore s (loadEnds tag act finish s) := by
  have failed : ∀ result data, KeepsStore s (loadFails tag result data s) :=
    fun _ _ => (opDone_keepsStore _ _ _ _ _).after (.of_same rfl rfl rfl rfl)
  cases finish with
  | success region langs beat cues => exact loadSucceeds_keepsStore tag act region langs beat cues s
  | noAct => exact failed _ _
  | corrupt index => exact failed _ _
  | check => exact failed _ _
  | ecc a => exact failed _ _

theorem loadCompleted_keepsStore (s : State) : KeepsStore s (loadCompleted s) := by
  unfold loadCompleted
  split
  · exact finishReads_keepsStore _ (fun failure t => loadEnds_keepsStore _ _ _ t) s
  · exact .refl s

theorem stagingReadEnded_keepsStore (s : State) : KeepsStore s (stagingReadEnded s) := by
  have taken : ∀ r failure text u, FiresOnly u (takeReadEnd r failure text u) := fun r failure text u =>
    (resultTaken_blocks r _ u).1.trans (takeReadEnd_only r failure text u).toFiresOnly
  unfold stagingReadEnded
  split
  · split
    · next r _ _ =>
      have read := (readUnits_only .staging (textUnits s.store r.address) s).keepsStore
      have left := (leaveQueue_only (readUnits .staging (textUnits s.store r.address) s)).toFiresOnly.keepsStore
      exact ((taken _ _ _ _).trans (stage_only _).toFiresOnly).keepsStore.after ((read.trans left).trans (.of_store rfl))
    · exact .refl s
  · exact .refl s

/-! ### Requests handled (R162, R163) -/

theorem respond_keepsStore (g : Handling) (result : Result) (data : List Byte) (s : State) :
    KeepsStore s (respond g result data s) := by
  obtain ⟨u, counted, placed⟩ := respond_only g result data s
  exact counted.toFiresOnly.keepsStore.trans (placed.toFiresOnly.keepsStore.after (.of_store rfl))

theorem handleRequest_keepsStore (h : Head) (r : Request) (s : State) : KeepsStore s (handleRequest h r s) := by
  have carried : ∀ g (reply : Reply), KeepsStore reply.left (carryOut g reply) := fun g reply => by
    cases reply with
    | answer t result data => exact respond_keepsStore g result data t
    | waiting t => exact .refl t
  exact (carried _ _).after ((replyOf_keepsStore h r _).after (.of_store rfl))

theorem handlePayload_keepsStore (source : Byte) (payload : List Byte) (s : State) :
    KeepsStore s (handlePayload source payload s) := by
  unfold handlePayload
  split
  · exact handleRequest_keepsStore _ _ s
  · exact (respond_keepsStore _ _ _ _).after (.of_store rfl)

theorem serve_keepsStore (s : State) : KeepsStore s (serve s) := by
  have loop : ∀ fuel s, KeepsStore s (serveLoop fuel s) := by
    intro fuel
    induction fuel with
    | zero => exact .refl
    | succ fuel ih =>
      intro s
      unfold serveLoop
      split
      · exact .refl s
      · split
        · exact (ih _).after ((handlePayload_keepsStore _ _ _).after (.of_store rfl))
        · exact .refl s
  exact loop _ s

theorem takeRequest_keepsStore (source : Byte) (payload : List Byte) (s : State) :
    KeepsStore s (takeRequest source payload s) := by
  have offered : KeepsStore s (offerRequest source payload s) := by
    unfold offerRequest
    split
    · exact .of_store rfl
    · exact .of_store (count_only _ s).stores
  exact offered.trans (serve_keepsStore _)

theorem discardBad_keepsStore (port : Port) (s : State) : KeepsStore s (discardBad port s) := by
  cases port <;> exact .of_store (count_only _ s).stores

theorem submit_keepsStore (h : Head) (r : Request) (s : State) : KeepsStore s (submit h r s) := by
  unfold submit
  split_ifs
  · exact discardBad_keepsStore .u s
  · exact handleRequest_keepsStore h r s
  · exact takeRequest_keepsStore _ _ s

theorem submitPayload_keepsStore (source : Byte) (payload : List Byte) (s : State) :
    KeepsStore s (submitPayload source payload s) := by
  unfold submitPayload
  split_ifs
  · exact discardBad_keepsStore .u s
  · exact handlePayload_keepsStore _ _ s
  · exact takeRequest_keepsStore _ _ s

theorem readStoreServed_keepsStore (s : State) : KeepsStore s (readStoreServed s) := by
  unfold readStoreServed
  split
  · split
    · exact (respond_keepsStore _ _ _ _).after <| (leaveQueue_only _).toFiresOnly.keepsStore.after
        (readUnits_only _ _ s).keepsStore
    · exact .refl s
  · exact .refl s

/-! ### Tools (R174 to R180) leave the store -/

theorem takeAnswer_store (source : Byte) (payload : List Byte) (s : State) :
    (takeAnswer source payload s).store = s.store := by
  unfold takeAnswer
  dsimp only
  split
  · split_ifs <;> rfl
  · rfl

theorem censusExpired_store (s : State) : (censusExpired s).store = s.store := by
  have marked := forChannels_keeps CaptionsOnly .refl (fun _ _ _ => .trans) _ markPresent_only s
  unfold censusExpired
  split
  · split
    · refine (notify_only _ _).stores.trans ((leaveTool_only _).stores.trans ?_)
      rw [withTools_store]
      exact marked.stores
    · rfl
  · rfl

theorem testFrameSent_store (s : State) : (testFrameSent s).store = s.store := by
  unfold testFrameSent
  split
  · split <;> rfl
  · rfl

theorem testGapExpired_store (s : State) : (testGapExpired s).store = s.store := by
  unfold testGapExpired
  split
  · split
    · exact (offerTool_only _ _).stores
    · rfl
  · rfl

theorem addErrors_store (d : Nat) (s : State) : (addErrors d s).store = s.store := by
  unfold addErrors
  split
  · split
    · rfl
    · exact (foldl_keeps PortUOnly .refl (fun _ _ _ => .trans) _ (fun t _ => notify_only _ t) _ _).stores
  · rfl

theorem takeEcho_store (payload : List Byte) (s : State) : (takeEcho payload s).store = s.store := by
  unfold takeEcho
  split
  · dsimp only
    split_ifs
    · rfl
    all_goals exact addErrors_store _ _
  · rfl

theorem testCompleted_store (s : State) : (testCompleted s).store = s.store := by
  unfold testCompleted
  split
  · split
    · exact (endTest_only _ _ s).stores
    · rfl
  · rfl

/-! ### Frames and transmissions (R148 to R157) -/

theorem takeFromDesk_keepsStore (f : Frame) (s : State) : KeepsStore s (takeFromDesk f s) := by
  unfold takeFromDesk
  split_ifs
  · exact takePos_keepsStore _ _ s
  · exact takeGo_keepsStore _ s
  · exact .refl s

theorem dispatchU_keepsStore (f : Frame) (s : State) : KeepsStore s (dispatchU f s) := by
  have forwarded := (forwardDown_only f s).toFiresOnly.keepsStore
  unfold dispatchU
  split_ifs
  · exact discardBad_keepsStore .u s
  · exact takeFromDesk_keepsStore f s
  · exact takeRequest_keepsStore _ _ s
  · exact .of_store (count_only _ s).stores
  · exact forwarded.trans (takeFromDesk_keepsStore f _)
  · exact forwarded

theorem dispatchD_keepsStore (f : Frame) (s : State) : KeepsStore s (dispatchD f s) := by
  unfold dispatchD
  split_ifs
  · exact discardBad_keepsStore .d s
  · exact .of_store (takeAnswer_store _ _ s)
  · exact .of_store (takeEcho_store _ s)
  · exact .of_store (count_only _ s).stores
  · exact .of_store (forwardUp_only f s).stores

theorem dispatch_keepsStore (port : Port) (f : Frame) (s : State) : KeepsStore s (dispatch port f s) := by
  cases port
  · exact dispatchU_keepsStore f s
  · exact dispatchD_keepsStore f s

theorem receive_keepsStore (port : Port) (bytes : List Byte) (s : State) : KeepsStore s (receive port bytes s) := by
  unfold receive
  split
  · exact dispatch_keepsStore port _ s
  · exact discardBad_keepsStore port s

theorem dSent_store (s : State) : (dSent s).store = s.store := by
  have told : ∀ t u, (toolSent t u).store = u.store := fun t u => by
    unfold toolSent
    split
    · exact testFrameSent_store u
    · rfl
  unfold dSent
  split
  · exact (chooseD_only s).stores
  · exact (chooseD_only _).stores.trans (told _ _)

theorem uSent_keepsStore (s : State) : KeepsStore s (uSent s) := by
  have told : ∀ u, (restartSent u).store = u.store := fun u => by
    unfold restartSent
    split <;> rfl
  unfold uSent
  split
  · exact (serve_keepsStore _).after (.of_store (chooseU_only s).stores)
  · exact (serve_keepsStore _).after (.of_store ((chooseU_only _).stores.trans (told _)))

/-! ### The controller reset (R131, R132, R141) -/

/-- A restart that does not take effect leaves the store; one that does resets its controller (R141). -/
theorem restartEffect_store (s : State) : KeepsStore s (restartEffect s) ∨ ResetsStore s (restartEffect s) := by
  have dark := forChannels_keeps CaptionsOnly .refl (fun _ _ _ => .trans) _ darkCaption_only (restarted s)
  unfold restartEffect
  dsimp only
  split
  · right
    have reset : ∀ t : State, t.store = (restarted s).store → ResetsStore s t := fun t h =>
      ⟨by rw [h]; rfl, by rw [h]; rfl, fun hs => by rw [h]; exact hs.1, fun _ => by rw [h]; rfl⟩
    split
    · exact reset _ dark.stores
    · exact reset _ ((showNotice_only _ _ _ _).stores.trans dark.stores)
  · exact .inl (.refl s)

/-- The bytes keep their form where power cuts an operation short (R131). -/
theorem cutCells_wf {s : State} (cut : Interrupt) (hs : cellsSound s) : (cutCells cut s.store).wf = true := by
  obtain ⟨wf, inside⟩ := hs
  unfold cutCells
  split
  · next a data tag hf => exact Cells.programSome_wf data _ _ a (inside a data tag hf) wf
  · exact Cells.eraseSome_wf _ _ _ wf
  · exact wf

/-- Without an update in flight power leaves the flags (R131). -/
theorem cutProtection_of_idle {st : Store} (cut : Interrupt) (h : st.updating = false) :
    cutProtection cut st = st.protection := by
  unfold cutProtection
  split
  · next hf => exact absurd (h.symm.trans (by rw [Store.updating, hf])) Bool.false_ne_true
  · next hf => exact absurd (h.symm.trans (by rw [Store.updating, hf])) Bool.false_ne_true
  · rfl

/-! ### Commands and steps -/

theorem during_keepsStore (m : Moment) {effect : State → State} (h : ∀ s, KeepsStore s (effect s)) {s t : State}
    (ht : during m s effect = .next t) : KeepsStore s t := by
  have moment : KeepsStore s (atMoment m s) := (atMoment_only m s).keepsStore.after (.of_same rfl rfl rfl rfl)
  obtain rfl := Host.Outcome.next.inj ht
  split
  · exact (moment.trans (h _)).trans (offerHalves_only _).toFiresOnly.keepsStore
  · exact .refl s

/-- A command keeps bytes, lock and flags, or resets the store's controller. -/
theorem exec_store (c : Instr) {s t : State} (ht : exec c s = .next t) : KeepsStore s t ∨ ResetsStore s t := by
  have kept : ∀ {m : Moment} {effect : State → State}, (∀ u, KeepsStore u (effect u)) →
      during m s effect = .next t → KeepsStore s t ∨ ResetsStore s t := fun h run => .inl (during_keepsStore _ h run)
  cases c with
  | powerUp straps cut =>
    obtain rfl := Host.Outcome.next.inj ht
    exact .inr ⟨rfl, rfl, cutCells_wf cut, cutProtection_of_idle cut⟩
  | powerFail cut =>
    obtain rfl := Host.Outcome.next.inj ht
    split
    · exact .inr ⟨rfl, rfl, cutCells_wf cut, cutProtection_of_idle cut⟩
    · exact .inl (.refl s)
  | restartTakesEffect =>
    obtain rfl := Host.Outcome.next.inj ht
    split
    · exact restartEffect_store s
    · exact .inl (.refl s)
  | badFrame m port bytes => exact kept (receive_keepsStore port bytes) ht
  | foreignKindFrame m port _ _ _ _ _ => exact kept (dispatch_keepsStore port _) ht
  | pos m _ _ _ _ | go m _ _ _ _ | req m _ _ _ _ | forwardDown m _ _ _ _ _ =>
    exact kept (dispatchU_keepsStore _) ht
  | forwardUp m _ _ _ _ _ | answer m _ _ _ _ | testEcho m _ _ _ _ => exact kept (dispatchD_keepsStore _) ht
  | dTransmissionComplete m => exact kept (fun u => .of_store (dSent_store u)) ht
  | uTransmissionComplete m => exact kept uSent_keepsStore ht
  | invalidRequest m source payload => exact kept (submitPayload_keepsStore source payload) ht
  | readStoreServed m => exact kept (fun u => (readStoreServed_keepsStore u).trans (serve_keepsStore _)) ht
  | programComplete m => exact kept programCompleted_keepsStore ht
  | eraseComplete m => exact kept eraseCompleted_keepsStore ht
  | verifyComplete m => exact kept verifyCompleted_keepsStore ht
  | checksumComplete m => exact kept checksumCompleted_keepsStore ht
  | protectionUpdateComplete m => exact kept protectionCompleted_keepsStore ht
  | loadComplete m => exact kept loadCompleted_keepsStore ht
  | censusWindowExpiry m => exact kept (fun u => .of_store (censusExpired_store u)) ht
  | testGapExpiry m => exact kept (fun u => .of_store (testGapExpired_store u)) ht
  | testCompletion m => exact kept (fun u => .of_store (testCompleted_store u)) ht
  | silenceDeadlineExpiry m => exact kept silenceExpiry_keepsStore ht
  | horizonDeadlineExpiry m => exact kept horizonExpiry_keepsStore ht
  | markDeadlineExpiry m => exact kept (fun u => (markExpired_only u).keepsStore) ht
  | followDeadlineExpiry m => exact kept (fun u => (followExpired_only u).keepsStore) ht
  | watchDeadlineExpiry m => exact kept (fun u => (watchExpired_only u).keepsStore) ht
  | readingDeadlineExpiry m n => exact kept (fun u => .of_store (readingExpired_only n u).stores) ht
  | gapDeadlineExpiry m n => exact kept (fun u => .of_store (gapExpired_only n u).stores) ht
  | messageExpiry m placement => exact kept (messageExpired_keepsStore placement) ht
  | stagingReadEnd m => exact kept stagingReadEnded_keepsStore ht
  | identify m h | readStatus m h | readCounters m h | readConfig m h | setConfig m h _ | commitConfig m h
  | loadAct m h _ | start m h _ | hold m h | resume m h | stop m h | unload m h | restart m h | setPointer m h _
  | showMessage m h _ _ _ _ | clearMessage m h _ _ | readStore m h _ _ | programStore m h _ _ | eraseSector m h _
  | verifyAct m h _ | checksum m h _ _ | protectAct m h _ | unprotectAct m h _ | lockShow m h | readEcc m h
  | clearEcc m h | census m h | readCensus m h | screenTest m h _ _ _ _ _ | stopTest m h =>
    exact kept (submit_keepsStore h _) ht

/-- A step keeps bytes, lock and flags, or resets the store's controller. -/
theorem step_store {s t : State} (ht : step s = .next t) : KeepsStore s t ∨ ResetsStore s t := by
  cases hp : s.pending with
  | nil =>
    rw [step_of_pending_nil hp] at ht
    obtain rfl := Host.Outcome.next.inj ht
    left
    unfold tick
    split <;> exact .of_store rfl
  | cons c rest =>
    have run : exec c (s.withPending rest) = .next t := by rw [← ht, step, hp]
    rcases exec_store c run with kept | reset
    · exact .inl (kept.after (.of_store rfl))
    · exact .inr ⟨reset.flight, reset.lock, reset.cells, reset.protection⟩

end Sys2Proof.Machine

namespace Sys2Proof.Proofs

open Sys2Proof.Machine

/-- Settles O39: a command keeps an engaged lock and its flags, since no update is in flight under it; power and restart
release the lock and leave the flags. -/
theorem showLockFreezesTheProtectionTable : Obligations.ShowLockFreezesTheProtectionTable := by
  intro s t hs ht
  rcases step_store ht with kept | reset
  · exact ⟨kept.lock hs, fun locked => (kept.guards hs locked).2⟩
  · exact ⟨fun _ => updating_of_none reset.flight, fun locked => reset.protection (hs locked)⟩

/-- Settles O43: only programs, erases and their interruptions touch the bytes, and each keeps their form. -/
theorem cellsStayCanonical : Obligations.CellsStayCanonical := by
  intro s t hs ht
  rcases step_store ht with kept | reset
  · exact kept.cells hs
  · exact cellsSound_of_none reset.flight (reset.cells hs)

end Sys2Proof.Proofs
end

section
/-! Without power (R131, R142): commands have no effect, and what an interrupted operation leaves. -/

namespace Sys2Proof.Machine

theorem during_unpowered {s : State} (off : s.powered = false) (m : Moment) (effect : State → State) :
    during m s effect = .next s := by
  rw [during, off]
  rfl

/-- Power lost leaves each byte of an interrupted program or erase at its old or its new value (R131). -/
theorem cutCells_get? (cut : Interrupt) (st : Store) (a : Nat) :
    (cutCells cut st).get? a = st.cells.get? a ∨
      (∃ a₀ data tag, st.flight = some ⟨.program a₀ data, tag⟩ ∧ a₀ ≤ a ∧ a < a₀ + data.length ∧
        (cutCells cut st).get? a = data[a - a₀]?) ∨
      (∃ sector tag, st.flight = some ⟨.erase sector, tag⟩ ∧ a / 4096 = sector ∧ (cutCells cut st).get? a = none) := by
  unfold cutCells
  split
  · next a₀ data tag hf =>
    rw [Cells.get?_programSome]
    split
    · next hit => exact .inr (.inl ⟨a₀, data, tag, hf, hit.1.1, hit.1.2, rfl⟩)
    · exact .inl rfl
  · next sector tag hf =>
    rw [Cells.get?_eraseSome]
    split
    · next hit => exact .inr (.inr ⟨sector, tag, hf, hit.1, rfl⟩)
    · exact .inl rfl
  · exact .inl rfl

theorem cutProtection_of_protect {cut : Interrupt} {st : Store} {act : Nat} {tag : Byte}
    (hf : st.flight = some ⟨.protect act, tag⟩) :
    cutProtection cut st = st.protection ∨ cutProtection cut st = setFlag st.protection act true := by
  rw [cutProtection, hf]
  dsimp only
  split
  · exact .inr rfl
  · exact .inl rfl

theorem cutProtection_of_unprotect {cut : Interrupt} {st : Store} {act : Nat} {tag : Byte}
    (hf : st.flight = some ⟨.unprotect act, tag⟩) :
    cutProtection cut st = st.protection ∨ cutProtection cut st = setFlag st.protection act false := by
  rw [cutProtection, hf]
  dsimp only
  split
  · exact .inr rfl
  · exact .inl rfl

end Sys2Proof.Machine

namespace Sys2Proof.Proofs

open Sys2Proof.Machine

/-- Settles O3: the meaning of every other command asks for power first. -/
theorem withoutPowerNothingHappens : Obligations.WithoutPowerNothingHappens := by
  intro c s off other
  have idle : ∀ effect : State, Host.Outcome.next (if s.powered then effect else s) = (.next s : Answer) := fun _ => by
    rw [off]
    rfl
  cases c with
  | powerUp straps cut => exact absurd rfl (other straps cut)
  | restartTakesEffect | powerFail cut => exact idle _
  | readStoreServed m => exact during_unpowered off m fun u => serve (readStoreServed u)
  | _ => exact during_unpowered off _ _

/-- Settles O6: the bytes and flags are those the interruption left; everything volatile is gone. -/
theorem interruptedOperationLeavesOldOrNew : Obligations.InterruptedOperationLeavesOldOrNew := by
  intro cut s on
  refine ⟨powerLost cut s, congrArg _ (if_pos on), rfl, rfl, rfl, rfl, rfl, fun a₀ data tag hf a => ?_,
    fun sector tag hf a => ?_, fun noProgram noErase a => ?_, fun act tag hf => cutProtection_of_protect hf,
    fun act tag hf => cutProtection_of_unprotect hf, cutProtection_of_idle cut⟩
  · rcases cutCells_get? cut s.store a with old | ⟨_, _, _, program, low, high, new⟩ | ⟨_, _, erase, -⟩
    · exact .inl old
    · obtain ⟨⟩ := hf.symm.trans program
      exact .inr ⟨low, high, new⟩
    · exact absurd (hf.symm.trans erase) (by simp)
  · rcases cutCells_get? cut s.store a with old | ⟨_, _, _, program, -⟩ | ⟨_, _, erase, inside, new⟩
    · exact .inl old
    · exact absurd (hf.symm.trans program) (by simp)
    · obtain ⟨⟩ := hf.symm.trans erase
      exact .inr ⟨inside, new⟩
  · rcases cutCells_get? cut s.store a with old | ⟨_, _, _, program, -⟩ | ⟨_, _, erase, -⟩
    · exact old
    · exact absurd program (noProgram _ _ _)
    · exact absurd erase (noErase _ _)

end Sys2Proof.Proofs
end

section
/-! Requests that put an operation in flight or touch one field of the store (R116 to R130): the answer, and what of the
store it leaves. -/

namespace Sys2Proof.Machine

/-- A request with parameters of at most 237 bytes fits a frame (R148, R164). -/
theorem payload_fits_of_le {r : Request} (short : (requestParameters r).length ≤ 237) (tag confirm : Byte) :
    (requestPayload r tag confirm).length ≤ Config.payloadMax := by
  simp only [requestPayload, Config.payloadMax, List.length_append, List.length_cons, List.length_nil]
  omega

theorem be_length (k v : Nat) : (be k v).length = k := by
  induction k with
  | zero => rfl
  | succ k ih => rw [be, List.length_cons, ih]

/-! ### Operations accepted (R118) -/

/-- An operation whose owner touches the show controller alone besides putting it in flight is answered ACCEPTED. -/
theorem request_accepted {m : Moment} {s₀ s : State} (h : Head) (r : Request) (op : StoreOp) (c : Control)
    (hs : Ready m s₀ s) (short : (requestParameters r).length ≤ 237)
    (reply : replyOf h r (inHand h r s) = accept op h.tag ((inHand h r s).withControl c)) :
    ∃ t, during m s₀ (submit h r) = .next t ∧ AcceptedOnly h r op s t ∧ t.control = c := by
  obtain ⟨t, run, answered, only, notices⟩ :=
    request_answeredQuietly h r _ _ _ hs (payload_fits_of_le short _ _) reply rfl
  exact ⟨t, run, ⟨only.stores, answered,
    ⟨only.outside, only.score, ⟨only.staging, only.firing⟩, ⟨only.channels, only.placements⟩, only.portD, only.requests⟩,
    only.tool, only.counters, notices⟩, only.control⟩

theorem actOk_of_le {act : Byte} (low : 1 ≤ act.toNat) (high : act.toNat ≤ 8) : actOk act = true := by
  simp [actOk, low, high]

section replies
variable {s : State} {tag act : Byte}

theorem busy_of_none (free : s.store.flight = none) : s.store.busy = false := by rw [Store.busy, free]; rfl

theorem doVerifyAct_accepts (ok : actOk act = true) (free : s.store.flight = none) :
    doVerifyAct tag act s = accept (.verify act.toNat) tag s := by
  simp [doVerifyAct, ok, busy_of_none free]

theorem doProtection_accepts (op : Nat → StoreOp) (ok : actOk act = true) (unlocked : s.store.lock = false)
    (free : s.store.flight = none) : doProtection op tag act s = accept (op act.toNat) tag s := by
  simp [doProtection, ok, unlocked, busy_of_none free]

theorem doProtection_locked (op : Nat → StoreOp) (ok : actOk act = true) (locked : s.store.lock = true) :
    doProtection op tag act s = .answer s .locked [] := by
  simp [doProtection, ok, locked, refuse]

theorem doLoadAct_accepts (ok : actOk act = true) (dark : s.control.show_ = .dark) (valid : s.management.valid = true)
    (free : s.store.flight = none) (queue : s.store.queue = []) :
    doLoadAct tag act s = accept (.load act.toNat) tag (s.withControl { s.control with loading := true }) := by
  simp [doLoadAct, ok, dark, valid, busy_of_none free, queue]

theorem doChecksum_accepts {address length : BitVec 32} (low : 1 ≤ length.toNat)
    (inside : address.toNat + length.toNat ≤ 2097152) (free : s.store.flight = none) :
    doChecksum tag address length s = accept (.checksum address.toNat length.toNat) tag s := by
  have whole : length.toNat ≤ 2097152 := by omega
  simp [doChecksum, Config.storeSize, low, inside, whole, busy_of_none free]

theorem doReadStore_waits {address : BitVec 32} {length : Byte} (low : 1 ≤ length.toNat) (high : length.toNat ≤ 224)
    (inside : address.toNat + length.toNat ≤ 2097152) (unloading : s.store.isLoading = false)
    (apart : s.store.runErasing address.toNat length.toNat = false) :
    doReadStore address length s = .waiting (joinQueue (.readStore address.toNat length.toNat) s) := by
  simp [doReadStore, Config.storeSize, low, high, inside, unloading, apart]

end replies

end Sys2Proof.Machine

namespace Sys2Proof.Proofs

open Sys2Proof.Machine

/-- Settles O32: each request passes its checks and is accepted. -/
theorem storeOperationsAreAccepted : Obligations.StoreOperationsAreAccepted := by
  intro m h s₀ s hs free
  refine ⟨fun act low high => ?_, fun address length low inside => ?_⟩
  · have ok := actOk_of_le low high
    refine ⟨?_, fun unlocked => ?_, fun unlocked => ?_, fun dark valid queue => ?_⟩
    · exact request_accepted h _ _ s.control hs (by decide : 1 ≤ 237) (doVerifyAct_accepts ok free)
    · exact request_accepted h _ _ s.control hs (by decide : 1 ≤ 237) (doProtection_accepts _ ok unlocked free)
    · exact request_accepted h _ _ s.control hs (by decide : 1 ≤ 237) (doProtection_accepts _ ok unlocked free)
    · exact request_accepted h _ _ _ hs (by decide : 1 ≤ 237) (doLoadAct_accepts ok dark valid free queue)
  · have short : (requestParameters (.checksum address length)).length ≤ 237 := by
      simp [requestParameters, be_length]
    exact request_accepted h _ _ s.control hs short (doChecksum_accepts low inside free)

/-- Settles O30: the request stays in handling, with its read at the queue's tail. -/
theorem readStoreJoinsTheQueue : Obligations.ReadStoreJoinsTheQueue := by
  intro m h address length s₀ s hs low high inside unloading apart
  have short : (requestParameters (.readStore address length)).length ≤ 237 := by simp [requestParameters, be_length]
  have reply : replyOf h (.readStore address length) (inHand h (.readStore address length) s) = _ :=
    doReadStore_waits low high inside unloading apart
  have effect : submit h (.readStore address length) s =
      joinQueue (.readStore address.toNat length.toNat) (inHand h (.readStore address length) s) := by
    rw [submit_ready h _ hs (payload_fits_of_le short _ _)]
    exact congrArg (carryOut _) reply
  have run := during_plain (submit h (.readStore address length)) hs.toAwake (by rw [effect]; exact hs.halves)
  rw [effect] at run
  have suspends : (s.store.suspended || (s.store.erasing && decide (s.management.restart = .none))) =
      (s.store.suspended || s.store.erasing) := by simp [hs.restart]
  refine ⟨_, run, ?_, rfl, rfl, ⟨rfl, rfl, rfl, rfl, rfl, rfl⟩, ⟨rfl, rfl⟩, ⟨rfl, rfl⟩, ⟨rfl, rfl⟩, ⟨rfl, rfl, rfl⟩,
    fun _ => rfl⟩
  rw [← suspends]
  rfl

/-- Settles O38: LOCK_SHOW changes the lock alone, and the lock is checked before anything else of a protection request
but its act. -/
theorem lockShowSetsTheLock : Obligations.LockShowSetsTheLock := by
  intro m h s₀ s hs
  refine ⟨fun idle => ?_, fun act locked low high => ?_⟩
  · have reply : replyOf h .lockShow (inHand h .lockShow s) =
        .answer ((inHand h .lockShow s).withStore { s.store with lock := true }) .ok [] :=
      if_neg (Bool.eq_false_iff.1 idle)
    obtain ⟨t, run, answered, only, notices⟩ :=
      request_answeredQuietly h .lockShow _ _ _ hs (requestPayload_fits rfl _ _) reply rfl
    exact ⟨t, run, only.stores, answered,
      ⟨only.outside, only.score, ⟨only.staging, only.firing⟩, ⟨only.channels, only.placements⟩, only.portD, only.requests⟩,
      ⟨only.control, only.tool, only.counters⟩, notices⟩
  · have ok := actOk_of_le low high
    have fits : ∀ r, requestParameters r = [act] → (requestPayload r h.tag h.confirm).length ≤ Config.payloadMax :=
      fun r one => payload_fits_of_le (by rw [one]; exact (by decide : 1 ≤ 237)) _ _
    exact ⟨request_answeredOnly h _ _ _ hs (fits _ rfl) (doProtection_locked _ ok locked),
      request_answeredOnly h _ _ _ hs (fits _ rfl) (doProtection_locked _ ok locked)⟩

end Sys2Proof.Proofs
end

section
/-! Programs and erases accepted behind their protection check, and the ECC address trap (R115, R117, R119 to R121). -/

namespace Sys2Proof.Machine

/-! ### What reads leave of the store (R115) -/

/-- A failing unit is trapped where the trap is empty (R115). -/
theorem readUnit_trap {reader : Reader} {unit : Nat} {s : State} (fails : s.store.unitFails unit = true) :
    (s.store.trap = none → (readUnit reader s unit).store.trap = some ⟨16 * unit, reader⟩) ∧
      (s.store.trap ≠ none → (readUnit reader s unit).store.trap = s.store.trap) := by
  have counted : (count .eccFailed s).store = s.store := (count_only _ s).stores
  rw [readUnit, if_pos fails]
  dsimp only
  rw [counted]
  split
  · next full => exact ⟨fun empty => absurd (full.symm.trans empty) (by simp), fun _ => by rw [counted]⟩
  · next empty => exact ⟨fun _ => rfl, fun full => absurd empty full⟩

/-- From s to t the address trap may have been filled, and for the rest of the store nothing changed. -/
def TrapsOnly (s t : State) : Prop := ∃ trap, t.store = { s.store with trap := trap }

theorem TrapsOnly.refl (s : State) : TrapsOnly s s := ⟨s.store.trap, rfl⟩

theorem TrapsOnly.trans {s t u : State} (h : TrapsOnly s t) (k : TrapsOnly t u) : TrapsOnly s u := by
  obtain ⟨_, h⟩ := h
  obtain ⟨trap, k⟩ := k
  exact ⟨trap, by rw [k, h]⟩

theorem readUnit_traps (reader : Reader) (s : State) (unit : Nat) : TrapsOnly s (readUnit reader s unit) := by
  have counted : ∀ name, (count name s).store = s.store := fun name => (count_only name s).stores
  unfold readUnit
  split
  · dsimp only
    split
    · exact ⟨s.store.trap, counted _⟩
    · exact ⟨some ⟨16 * unit, reader⟩, by rw [withStore_store, counted]⟩
  · split
    · exact ⟨s.store.trap, counted _⟩
    · exact .refl s

theorem readUnits_traps (reader : Reader) (units : List Nat) (s : State) : TrapsOnly s (readUnits reader units s) :=
  foldl_keeps TrapsOnly .refl (fun _ _ _ => .trans) _ (readUnit_traps reader) units s

/-! ### Widths over a replaced store -/

/-- The whole store replaced on both sides of a width of counting. -/
theorem NoticesOnly.withStore {s t : State} (h : NoticesOnly s t) (x : Store) :
    NoticesOnly (s.withStore x) (t.withStore x) where
  outside := h.outside
  score := h.score
  placements := h.placements
  control := h.control
  store := ⟨x.queue, x.suspended, rfl⟩
  requests := h.requests
  tools := h.tools
  grows := h.grows
  firing := h.firing
  entries := h.entries
  staging := h.staging
  stores := rfl
  channels := h.channels
  tool := h.tool
  portD := h.portD

/-- Reading keeps to the width of counting over whatever store it leads to. -/
theorem ReadsOnly.withStore {s t : State} (h : ReadsOnly s t) (x : Store) :
    NoticesOnly (s.withStore x) (t.withStore x) := by
  obtain ⟨_, _, _, only⟩ := h
  exact only.withStore x

/-- A request's effect of counting's width, once answered, keeps to that width from the state that found none in hand. -/
theorem NoticesOnly.answered {s u : State} {g : Handling} (h : NoticesOnly (takeInHand g s) u)
    (hs : s.management.handling = none) (result : Result) (data : List Byte) :
    NoticesOnly s (respond g result data u) := by
  obtain ⟨v, hv, sent⟩ := respond_only g result data u
  obtain ⟨hfifo, -, hvalid⟩ := (h.trans hv).requests
  have ended : NoticesOnly s (v.withManagement { v.management with handling := none }) :=
    { h.trans hv with requests := ⟨hfifo, hs.symm, hvalid⟩ }
  exact ended.trans sent.toNoticesOnly

/-- What counting's width says beside the store. -/
theorem NoticesOnly.besideStore {s t : State} (h : NoticesOnly s t) : sameBesideStore s t :=
  ⟨h.outside, h.score, ⟨h.staging, h.firing⟩, ⟨h.channels, h.placements⟩, h.portD, h.requests⟩

/-! ### Programs and erases (R119, R120, R121) -/

/-- A store whose controller has made its check reads and put an operation in flight. -/
def Store.started (st : Store) (f : Flight) (suspended : Bool) (trap : Option Trap) : Store :=
  { st with flight := some f, suspended := suspended, trap := trap, reads := 0 }

theorem checkReads_traps (s : State) : TrapsOnly s (checkReads s) := readUnits_traps .protection _ s

/-- A request whose owner makes its check reads and then puts an operation in flight is accepted. -/
theorem request_acceptedBeside {m : Moment} {s₀ s : State} (h : Head) (r : Request) {f : Flight} {suspended : Bool}
    {trap : Option Trap} (hs : Ready m s₀ s) (short : (requestParameters r).length ≤ 237)
    (reply : replyOf h r (inHand h r s) =
      .answer ((checkReads (inHand h r s)).withStore (s.store.started f suspended trap)) .accepted []) :
    ∃ t, during m s₀ (submit h r) = .next t ∧ AcceptedBeside s t ∧ t.store.flight = some f ∧
      Answered t (responseTo h r .accepted []) := by
  obtain ⟨run, answered⟩ := request_answered h r _ _ _ hs (payload_fits_of_le short _ _) reply
  have checked := (readUnits_only .protection ((acts.filter s.store.isProtected).map dirUnit) (inHand h r s)).withStore
    (s.store.started f suspended trap)
  have only := NoticesOnly.answered (s := s.withStore (s.store.started f suspended trap)) checked hs.handling .accepted []
  refine ⟨_, run, ⟨fun a => ?_, ?_, ?_, ?_, ?_, only.besideStore, only.control, only.tool⟩, ?_, answered⟩
  · exact congrArg (·.cells.get? a) only.stores
  · exact congrArg (·.protection) only.stores
  · exact congrArg (·.region) only.stores
  · exact congrArg (·.lock) only.stores
  · exact congrArg (·.queue) only.stores
  · exact congrArg (·.flight) only.stores

theorem doProgramStore_accepts {tag : Byte} {address : BitVec 32} {data : List Byte} {s : State}
    (inPage : runInPage address.toNat data.length = true) (free : s.store.flight = none)
    (unprotected : s.store.sectorProtected (address.toNat / 4096) = false)
    (erased : s.store.cells.runErased address.toNat data.length = true) :
    ∃ trap, doProgramStore tag address data s = .answer ((checkReads s).withStore
      (s.store.started ⟨.program address.toNat data, tag⟩ s.store.suspended trap)) .accepted [] := by
  obtain ⟨trap, checked⟩ := checkReads_traps s
  have still : (checkReads s).store.sectorProtected (address.toNat / 4096) = false := by rw [checked]; exact unprotected
  have empty : (checkReads s).store.cells.runErased address.toNat data.length = true := by rw [checked]; exact erased
  have accepted : accept (.program address.toNat data) tag (checkReads s) = .answer ((checkReads s).withStore
      (s.store.started ⟨.program address.toNat data, tag⟩ s.store.suspended trap)) .accepted [] := by
    rw [accept, checked]
    rfl
  exact ⟨trap, by simp [doProgramStore, inPage, busy_of_none free, still, empty, accepted]⟩

theorem doEraseSector_accepts {tag : Byte} {sector : BitVec 16} {s : State} (inside : sector.toNat ≤ 511)
    (free : s.store.flight = none) (unprotected : s.store.sectorProtected sector.toNat = false) :
    ∃ trap, doEraseSector tag sector s = .answer ((checkReads s).withStore
      (s.store.started ⟨.erase sector.toNat, tag⟩ (!s.store.queue.isEmpty) trap)) .accepted [] := by
  obtain ⟨trap, checked⟩ := checkReads_traps s
  have still : (checkReads s).store.sectorProtected sector.toNat = false := by rw [checked]; exact unprotected
  have accepted : accept (.erase sector.toNat) tag ((checkReads s).withStore
        { (checkReads s).store with suspended := !(checkReads s).store.queue.isEmpty }) =
      .answer ((checkReads s).withStore
        (s.store.started ⟨.erase sector.toNat, tag⟩ (!s.store.queue.isEmpty) trap)) .accepted [] := by
    rw [accept, checked]
    rfl
  exact ⟨trap, by simp only [doEraseSector, Nat.not_lt.2 inside, busy_of_none free, still, accepted, if_false,
    Bool.false_eq_true]⟩

end Sys2Proof.Machine

namespace Sys2Proof.Proofs

open Sys2Proof.Machine

/-- Settles O33: the check reads change no byte, flag or region, so the checks come out as the state found says. -/
theorem programAndEraseAreAccepted : Obligations.ProgramAndEraseAreAccepted := by
  constructor
  · intro m h address data s₀ s hs free inPage unprotected erased
    have most : data.length ≤ 224 := by
      simp only [runInPage, Bool.and_eq_true, decide_eq_true_eq] at inPage
      exact inPage.1.1.2
    have short : (requestParameters (.programStore address data)).length ≤ 237 := by
      simp only [requestParameters, List.length_append, be_length]
      omega
    obtain ⟨trap, reply⟩ := doProgramStore_accepts (tag := h.tag)
      (s := inHand h (.programStore address data) s) inPage free unprotected erased
    exact request_acceptedBeside h _ hs short reply
  · intro m h sector s₀ s hs free inside unprotected
    have short : (requestParameters (.eraseSector sector)).length ≤ 237 := by simp [requestParameters, be_length]
    obtain ⟨trap, reply⟩ := doEraseSector_accepts (tag := h.tag) (s := inHand h (.eraseSector sector) s) inside free
      unprotected
    exact request_acceptedBeside h _ hs short reply

/-- Settles O40: both requests are answered at once, the trap is filled by the first failing read, and restart and
power-up start from an empty one. -/
theorem eccTrapIsReadAndCleared : Obligations.EccTrapIsReadAndCleared := by
  refine ⟨fun m h s₀ s hs => ⟨?_, ?_⟩, fun reader unit s fails => readUnit_trap fails, fun _ => rfl, fun _ _ _ => rfl⟩
  · have data : optionally (fun t : Trap => be 4 t.address ++ be 1 t.reader.code) s.store.trap =
        match s.store.trap with
        | none => [0]
        | some x => [1] ++ be 4 x.address ++ be 1 x.reader.code := by
      cases s.store.trap <;> rfl
    exact request_answeredOnly h .readEcc _ _ hs (requestPayload_fits rfl _ _) (congrArg (Reply.answer _ .ok) data)
  · obtain ⟨t, run, answered, only, notices⟩ :=
      request_answeredQuietly h .clearEcc _ _ _ hs (requestPayload_fits rfl _ _) rfl rfl
    exact ⟨t, run, answered, only.stores, only.toNoticesOnly.besideStore, ⟨only.control, only.tool, only.counters⟩,
      notices⟩

end Sys2Proof.Proofs
end

section
/-! Completions of programs, erases and protection updates (R118 to R121, R128): the OP_DONE over the store they leave. -/

namespace Sys2Proof.Machine

/-! ### OP_DONE (R118, R132) -/

/-- Given room, an OP_DONE is admitted, but not while a RESTART is carried out. -/
theorem opDone_admitted {op : OpName} {tag : Byte} {result : DoneResult} {data : List Byte} {s : State}
    (active : s.management.restart = .none) (room : roomFor s .opDone) :
    Admitted s (opDone op tag result data s) (.opDone op tag result data) := by
  rw [opDone, if_pos active]
  exact notify_admitted _ s room

theorem opDone_of_restarting {op : OpName} {tag : Byte} {result : DoneResult} {data : List Byte} {s : State}
    (restarting : s.management.restart ≠ .none) : opDone op tag result data s = s := if_neg restarting

/-- A completion that leaves store x, with no operation in flight and the rest of its controller as before, and then
tells OP_DONE. -/
theorem during_completed {m : Moment} {s₀ s : State} {effect : State → State} {op : OpName} {tag : Byte}
    {result : DoneResult} {data : List Byte} {x : Store} (hs : Awake m s₀ s)
    (run : effect s = opDone op tag result data (s.withStore x)) (free : x.flight = none)
    (region : x.region = s.store.region) (lock : x.lock = s.store.lock) (queue : x.queue = s.store.queue)
    (trap : x.trap = s.store.trap) :
    ∃ t, during m s₀ effect = .next t ∧ CompletedBeside s t ∧ t.store = x ∧
      (s.management.restart = .none → roomFor s .opDone → Admitted s t (.opDone op tag result data)) ∧
      (s.management.restart ≠ .none → sameNotices s t) := by
  have only := opDone_only op tag result data (s.withStore x)
  have store : (opDone op tag result data (s.withStore x)).store = x := only.stores
  refine ⟨_, during_plain effect hs (by rw [run]; exact only.halves.trans hs.halves), ?_⟩
  rw [run]
  refine ⟨⟨?_, ?_, ?_, ?_, ?_, only.toNoticesOnly.besideStore, only.control, only.tool, only.counters⟩, store,
    fun active room => opDone_admitted (s := s.withStore x) active room, fun restarting => ?_⟩
  · rw [store, free]
  · rw [store, region]
  · rw [store, lock]
  · rw [store, queue]
  · rw [store, trap]
  · rw [opDone_of_restarting (s := s.withStore x) restarting]
    exact .refl s

/-- A command that finds nothing to do leaves the state it finds. -/
theorem during_idle {m : Moment} {s₀ s : State} {effect : State → State} (hs : Awake m s₀ s) (idle : effect s = s) :
    during m s₀ effect = .next s := by
  rw [during_plain effect hs (by rw [idle]; exact hs.halves), idle]

/-! ### What each completion leaves of the store -/

/-- A store with new bytes and flags and no operation in flight. -/
def Store.finished (st : Store) (cells : Cells) (protection : BitVec 8) : Store :=
  { st with cells := cells, protection := protection, flight := none, suspended := false, reads := 0 }

section completions
variable {s : State} {tag : Byte}

theorem programCompleted_of_flight {a : Nat} {data : List Byte} (hf : s.store.flight = some ⟨.program a data, tag⟩) :
    programCompleted s = opDone .program tag .ok (be 4 a ++ be 4 data.length)
      (s.withStore (s.store.finished (s.store.cells.program a data) s.store.protection)) := by
  rw [programCompleted, hf]
  rfl

theorem eraseCompleted_of_flight {sector : Nat} (hf : s.store.flight = some ⟨.erase sector, tag⟩)
    (runs : s.store.suspended = false) :
    eraseCompleted s = opDone .erase tag .ok (be 2 sector)
      (s.withStore (s.store.finished (s.store.cells.eraseSector sector) s.store.protection)) := by
  rw [eraseCompleted, hf]
  exact if_neg (by rw [runs]; decide)

theorem eraseCompleted_of_suspended {sector : Nat} (hf : s.store.flight = some ⟨.erase sector, tag⟩)
    (waits : s.store.suspended = true) : eraseCompleted s = s := by
  rw [eraseCompleted, hf]
  exact if_pos waits

theorem protectionCompleted_of_flight {act : Nat} {on : Bool}
    (hf : s.store.flight = some ⟨if on then .protect act else .unprotect act, tag⟩) :
    protectionCompleted s = opDone (if on then .protect else .unprotect) tag .ok
      (be 1 act ++ [setFlag s.store.protection act on])
      (s.withStore (s.store.finished s.store.cells (setFlag s.store.protection act on))) := by
  cases on <;>
  · rw [protectionCompleted, hf]
    rfl

end completions

/-- A flag set or cleared is that act's alone (R128). -/
theorem setFlag_getLsbD {table : BitVec 8} {act other : Nat} {on : Bool} (low : 1 ≤ act) (high : act ≤ 8)
    (otherLow : 1 ≤ other) (otherHigh : other ≤ 8) :
    (setFlag table act on).getLsbD (other - 1) = if other = act then on else table.getLsbD (other - 1) := by
  have inside : other - 1 < 8 := by omega
  by_cases same : other = act
  · subst same
    cases on <;> simp [setFlag, inside]
  · cases on <;> simp [setFlag, inside, same] <;> omega

end Sys2Proof.Machine

namespace Sys2Proof.Proofs

open Sys2Proof.Machine

/-- Settles O34: the completion writes the run, and tells it. -/
theorem programGivesExactlyItsBytes : Obligations.ProgramGivesExactlyItsBytes := by
  intro m a data tag s₀ s hs hf
  obtain ⟨t, run, beside, store, told, untold⟩ :=
    during_completed hs (programCompleted_of_flight hf) rfl rfl rfl rfl rfl
  refine ⟨t, run, beside, fun x => ?_, ?_, told, untold⟩
  · rw [store]
    exact Cells.get?_program data s.store.cells a x
  · rw [store]
    rfl

/-- Settles O35: the completion of an erase that runs empties the sector; one that is suspended waits. -/
theorem eraseEmptiesExactlyItsSector : Obligations.EraseEmptiesExactlyItsSector := by
  intro m sector tag s₀ s hs hf
  refine ⟨fun runs => ?_, fun waits => ?_⟩
  · obtain ⟨t, run, beside, store, told, untold⟩ :=
      during_completed hs (eraseCompleted_of_flight hf runs) rfl rfl rfl rfl rfl
    refine ⟨t, run, beside, fun x => ?_, ?_, told, untold⟩
    · rw [store]
      exact Cells.get?_eraseSector s.store.cells sector x
    · rw [store]
      rfl
  · obtain ⟨blocks, rest⟩ := (PortUOnly.refl s).sameRest
    exact ⟨s, during_idle hs (eraseCompleted_of_suspended hf waits), blocks, rest, rfl⟩

/-- Settles O37: the completion replaces one flag, and tells the table. -/
theorem protectionUpdateChangesOneFlag : Obligations.ProtectionUpdateChangesOneFlag := by
  intro m act tag on s₀ s hs low high hf
  obtain ⟨t, run, beside, store, told, untold⟩ :=
    during_completed hs (protectionCompleted_of_flight hf) rfl rfl rfl rfl rfl
  have table : t.store.protection = setFlag s.store.protection act on := by rw [store]; rfl
  refine ⟨t, run, beside, fun x => ?_, fun other otherLow otherHigh => ?_, ?_, untold⟩
  · rw [store]
    rfl
  · rw [Store.isProtected, table]
    exact setFlag_getLsbD low high otherLow otherHigh
  · rw [table]
    exact told

end Sys2Proof.Proofs
end

section
/-! READ_STORE served (R112 to R116): the bytes of its answer, and what serving leaves. -/

namespace Sys2Proof.Machine

/-! ### The bytes returned (R112, R116) -/

section returned
variable {st : Store} {a : Nat} {b : Byte}

theorem returned_of_erased (h : st.cells.get? a = none) : st.returned a = 0xFF := by rw [Store.returned, h]

theorem returned_of_sound (h : st.cells.get? a = some b) (sound : st.unitFails (a / 16) = false) : st.returned a = b := by
  rw [Store.returned, h]
  rw [Store.unitFails] at sound
  split at sound
  · cases sound
  · next plain =>
    split
    · next erased => cases erased
    · next pattern hb error => exact absurd error (plain pattern)
    · next hb _ => exact (Option.some.inj hb).symm

theorem returned_of_failing {pattern : BitVec 128} (h : st.cells.get? a = some b)
    (error : st.unitError (a / 16) = some (.manyBits pattern)) :
    st.returned a = b ^^^ pattern.extractLsb' (8 * (a % 16)) 8 := by rw [Store.returned, h, error]

theorem readStoreData_eq (st : Store) (a n : Nat) :
    readStoreData st a n = be 1 n ++ (List.range n).map (fun i => st.returned (a + i)) ++
      (match (unitsOf a n).find? st.unitFails with
       | none => [0, 0]
       | some u => [1, 1] ++ be 4 (16 * u)) := by
  rw [readStoreData, Store.firstFailure]
  cases (unitsOf a n).find? st.unitFails <;> simp [yes, optionally]

end returned

/-! ### The read served (R114, R163) -/

/-- A READ_STORE's read at the head of the queue, with nothing that blocks it, is served and answered. -/
theorem readStoreServed_of_head {g : Handling} {a n : Nat} {rest : List ReadJob} {s : State}
    (handling : s.management.handling = some g) (queue : s.store.queue = .readStore a n :: rest)
    (free : s.store.blocksReads = false) (active : s.management.restart = .none) :
    readStoreServed s = respond g .ok (readStoreData s.store a n) (leaveQueue (readUnits .readStore (unitsOf a n) s)) := by
  have served : servable ReadJob.isReadStore s = true := by simp [servable, active, free, queue, ReadJob.isReadStore]
  rw [readStoreServed, handling, queue]
  exact if_pos served

/-- With no request waiting none is taken. -/
theorem serve_of_empty {s : State} (h : s.management.fifo = []) : serve s = s := by
  rw [serve, h]
  rfl

/-- An answer given from the state that has the request in handling keeps to counting's width from the one without. -/
theorem respond_noticesOnly {s u : State} (h : NoticesOnly s u) (g : Handling) (result : Result) (data : List Byte) :
    NoticesOnly (s.withManagement { s.management with handling := none }) (respond g result data u) := by
  obtain ⟨v, hv, sent⟩ := respond_only g result data u
  obtain ⟨hfifo, -, hvalid⟩ := (h.trans hv).requests
  have ended : NoticesOnly (s.withManagement { s.management with handling := none })
      (v.withManagement { v.management with handling := none }) :=
    { h.trans hv with requests := ⟨hfifo, rfl, hvalid⟩ }
  exact ended.trans sent.toNoticesOnly

/-- The store after a read was served. -/
def Store.served (st : Store) (trap : Option Trap) : Store :=
  { st with queue := st.queue.tail, suspended := st.suspended && !st.queue.tail.isEmpty, trap := trap }

/-- Serving a read counts, may fill the address trap, and takes the read off the queue. -/
theorem leaveQueue_readUnits (reader : Reader) (units : List Nat) (s : State) :
    ∃ trap, NoticesOnly (s.withStore (s.store.served trap)) (leaveQueue (readUnits reader units s)) := by
  obtain ⟨trap, store⟩ := readUnits_traps reader units s
  have left : leaveQueue (readUnits reader units s) = (readUnits reader units s).withStore (s.store.served trap) := by
    rw [leaveQueue, store]
    rfl
  rw [left]
  exact ⟨trap, (readUnits_only reader units s).withStore _⟩

end Sys2Proof.Machine

namespace Sys2Proof.Proofs

open Sys2Proof.Machine

/-- Settles O31: the served read is answered from the store as it stands, leaves the queue, and ends the handling. -/
theorem readStoreServedAnswers : Obligations.ReadStoreServedAnswers := by
  intro m g a n rest s₀ s hs handling queue free active fifo slot st failure
  obtain ⟨trap, left⟩ := leaveQueue_readUnits .readStore (unitsOf a n) s
  have only := respond_noticesOnly left g .ok (readStoreData s.store a n)
  have answered : ∀ data, readStoreData s.store a n = data → Answered
      (respond g .ok (readStoreData s.store a n) (leaveQueue (readUnits .readStore (unitsOf a n) s)))
      ⟨g.source, g.code, g.tag, .ok, data⟩ := by
    rintro _ rfl
    exact respond_answered _ _ _ _
  have halves := respond_halves g .ok (readStoreData s.store a n) (leaveQueue (readUnits .readStore (unitsOf a n) s))
  obtain ⟨hfifo, hhandling, hvalid⟩ := only.requests
  have served : serve (readStoreServed s) =
      respond g .ok (readStoreData s.store a n) (leaveQueue (readUnits .readStore (unitsOf a n) s)) := by
    rw [readStoreServed_of_head handling queue free active]
    exact serve_of_empty (hfifo.trans fifo)
  have run := during_plain (fun u => serve (readStoreServed u)) hs (by rw [served]; exact halves)
  rw [served] at run
  have store := only.stores
  have tail : s.store.queue.tail = rest := by rw [queue]; rfl
  refine ⟨_, run, answered _ (readStoreData_eq _ _ _), hhandling, ?_, ?_, ?_, ?_, fun x => ?_, only.outside, only.score, ⟨only.staging, only.firing⟩,
    ⟨only.channels, only.placements⟩, only.control, only.tool, only.portD, hfifo.trans fifo, hvalid, fun x =>
    ⟨returned_of_erased, fun b hb => ⟨returned_of_sound hb, fun pattern => returned_of_failing hb⟩⟩⟩
  · rw [store, ← tail]
    rfl
  · rw [store]
    rfl
  · rw [store, ← tail]
    rfl
  · rw [store]
    rfl
  · rw [store]
    rfl

end Sys2Proof.Proofs
end

section
/-! The reads of the operation in flight (R114, R115): what they leave of the store, when they are told by nothing, and
how a reading operation ends. -/

namespace Sys2Proof.Machine

/-! ### The store after operation reads (R114) -/

theorem readNext_store (reader : Reader) (s : State) (unit : Nat) :
    ∃ trap, (readNext reader s unit).store = { s.store with trap := trap, reads := s.store.reads + 1 } := by
  have offered : (offerHalves s).store = s.store := (offerHalves_only s).stores
  obtain ⟨trap, read⟩ := readUnit_traps reader (offerHalves s) unit
  refine ⟨trap, ?_⟩
  rw [readNext, withStore_store, read, offered]

/-- Reading on counts its units, and may fill the address trap (R114). -/
theorem readOn_store (reader : Reader) (units : List Nat) (s : State) :
    ∃ trap, (readOn reader units s).store = { s.store with trap := trap, reads := s.store.reads + units.length } := by
  induction units generalizing s with
  | nil => exact ⟨s.store.trap, rfl⟩
  | cons unit rest ih =>
    obtain ⟨_, first⟩ := readNext_store reader s unit
    obtain ⟨trap, later⟩ := ih (readNext reader s unit)
    refine ⟨trap, ?_⟩
    rw [readOn, List.foldl_cons, ← readOn, later, first, List.length_cons, Nat.add_right_comm, Nat.add_assoc]

/-- The region of a load counts no unit (R129). -/
theorem regionTaken_store (s : State) : ∃ region, (regionTaken s).store = { s.store with region := region } := by
  unfold regionTaken
  split
  · split
    · split
      · exact ⟨_, rfl⟩
      · exact ⟨s.store.region, rfl⟩
    · exact ⟨s.store.region, rfl⟩
  · exact ⟨s.store.region, rfl⟩

/-- Units that have been read are left no longer. -/
theorem readsLeft_after {a b : Store} {k : Nat} (cells : b.cells = a.cells) (flight : b.flight = a.flight)
    (reads : b.reads = a.reads + k) : b.readsLeft = a.readsLeft.drop k := by
  rw [Store.readsLeft, Store.readsLeft, Store.work, Store.work, cells, flight, reads, List.drop_drop]

/-! ### Reads between commands (R114, log 15) -/

theorem readAhead_of_queued {n : Nat} {s : State} (queued : s.store.queue ≠ []) : readAhead n s = s := by
  unfold readAhead
  split
  · exact if_neg queued
  · rfl

/-- With no read queued the operation in flight reads up to n units, but not one that fails. -/
theorem readAhead_readsLeft {n : Nat} {s : State} (free : s.store.queue = []) :
    (readAhead n s).store.readsLeft =
      s.store.readsLeft.drop (s.store.beforeFailure (s.store.readsLeft.take n)).length := by
  unfold readAhead
  split
  · next reader _ _ =>
    rw [if_pos free]
    obtain ⟨_, read⟩ := readOn_store reader (s.store.beforeFailure (s.store.readsLeft.take n)) s
    obtain ⟨_, taken⟩ := regionTaken_store (readOn reader (s.store.beforeFailure (s.store.readsLeft.take n)) s)
    rw [read] at taken
    rw [taken]
    exact readsLeft_after rfl rfl rfl
  · next idle =>
    have nothing : s.store.readsLeft = [] := by rw [Store.readsLeft, idle]; exact List.drop_nil
    rw [nothing, List.drop_nil]

theorem beforeFailure_of_sound {st : Store} {units : List Nat} (sound : ∀ u ∈ units, st.unitFails u = false) :
    st.beforeFailure units = units := by
  rw [Store.beforeFailure, List.takeWhile_eq_self_iff]
  exact fun u hu => by rw [sound u hu]; rfl

theorem beforeFailure_of_failing {st : Store} {u n : Nat} {rest : List Nat} (fails : st.unitFails u = true) :
    st.beforeFailure ((u :: rest).take n) = [] := by
  cases n with
  | zero => rfl
  | succ n => rw [Store.beforeFailure, List.take_succ_cons, List.takeWhile_cons_of_neg (by rw [fails]; decide)]

/-- The store that reads between commands start from. -/
def Store.conditioned (st : Store) (faults : List UnitFault) : Store := { st with faults := faults }

theorem atMoment_store (m : Moment) (s : State) : (atMoment m s).store =
    (readAhead m.reads ((s.withClock m.clock).withStore (s.store.conditioned m.faults))).store :=
  (offerHalves_only _).stores

theorem atMoment_reads_of_queued {m : Moment} {s : State} (queued : s.store.queue ≠ []) :
    (atMoment m s).store.readsLeft = s.store.readsLeft := by
  have kept : readAhead m.reads ((s.withClock m.clock).withStore (s.store.conditioned m.faults)) = _ :=
    readAhead_of_queued queued
  rw [atMoment_store, kept]
  rfl

theorem atMoment_readsLeft {m : Moment} {s : State} (free : s.store.queue = []) : (atMoment m s).store.readsLeft =
    s.store.readsLeft.drop ((s.store.conditioned m.faults).beforeFailure (s.store.readsLeft.take m.reads)).length := by
  rw [atMoment_store]
  exact readAhead_readsLeft (s := (s.withClock m.clock).withStore (s.store.conditioned m.faults)) free

theorem atMoment_reads_of_sound {m : Moment} {s : State} (free : s.store.queue = [])
    (sound : ∀ u ∈ s.store.readsLeft.take m.reads, (s.store.conditioned m.faults).unitFails u = false) :
    (atMoment m s).store.readsLeft = s.store.readsLeft.drop m.reads := by
  rw [atMoment_readsLeft free, beforeFailure_of_sound sound, List.length_take]
  rcases Nat.le_total m.reads s.store.readsLeft.length with within | beyond
  · rw [Nat.min_eq_left within]
  · rw [Nat.min_eq_right beyond, List.drop_length, List.drop_eq_nil_of_le beyond]

theorem atMoment_reads_of_failing {m : Moment} {s : State} {u : Nat} {rest : List Nat}
    (left : s.store.readsLeft = u :: rest) (fails : (s.store.conditioned m.faults).unitFails u = true) :
    (atMoment m s).store.readsLeft = s.store.readsLeft := by
  by_cases free : s.store.queue = []
  · rw [atMoment_readsLeft free, left, beforeFailure_of_failing fails]
    rfl
  · exact atMoment_reads_of_queued free

/-! ### Reads that are told by nothing (R170, R171) -/

/-- Only COUNTER_HALF notices are held back. -/
def halvesOnly (s : State) : Prop := ∀ n ∈ s.management.halves, n.kind = .counterHalf

/-- From s to t at most notices were held back or dropped: link, configuration and the rest of the management block are as
before. -/
structure Unheard (s t : State) : Prop where
  link : t.link = s.link
  config : t.config = s.config
  management : ∃ halves, t.management = { s.management with halves := halves }
  kinds : halvesOnly s → halvesOnly t

theorem Unheard.refl (s : State) : Unheard s s := ⟨rfl, rfl, ⟨_, rfl⟩, id⟩

theorem Unheard.trans {s t u : State} (h : Unheard s t) (k : Unheard t u) : Unheard s u := by
  obtain ⟨_, hm⟩ := h.management
  obtain ⟨halves, km⟩ := k.management
  exact ⟨k.link.trans h.link, k.config.trans h.config, ⟨halves, by rw [km, hm]⟩, k.kinds ∘ h.kinds⟩

theorem count_unheard (name : CounterName) (s : State) : Unheard s (count name s) := by
  unfold count
  dsimp only
  split
  · refine ⟨rfl, rfl, ⟨_, rfl⟩, fun hs n hn => ?_⟩
    rcases List.mem_append.1 hn with old | new
    · exact hs n old
    · rw [List.mem_singleton.1 new]
      rfl
  · exact ⟨rfl, rfl, ⟨_, rfl⟩, id⟩

theorem readUnit_unheard (reader : Reader) (s : State) (unit : Nat) : Unheard s (readUnit reader s unit) := by
  unfold readUnit
  split
  · have counted := count_unheard .eccFailed s
    dsimp only
    split
    · exact counted
    · exact ⟨counted.link, counted.config, counted.management, counted.kinds⟩
  · split
    · exact count_unheard _ s
    · exact .refl s

/-- With port U busy and the kind disabled, COUNTER_HALF notices are offered in vain (R171). -/
theorem offerHalves_unheard {s : State} (busy : s.link.sendingU.isSome = true)
    (untold : s.config.engine.notices[NoticeKind.counterHalf.index] = false) (kinds : halvesOnly s) :
    Unheard s (offerHalves s) := by
  have dropped : ∀ (ns : List Notice) (u : State), u.link = s.link → u.config = s.config →
      (∀ n ∈ ns, n.kind = .counterHalf) → ns.foldl (fun u n => notify n u) u = u := by
    intro ns u link config counter
    induction ns with
    | nil => rfl
    | cons n rest ih =>
      have disabled : u.config.engine.notices[n.kind.index] = false := by
        simpa only [counter n List.mem_cons_self, config] using untold
      rw [List.foldl_cons, notify_disabled (by rw [link]; exact busy) disabled]
      exact ih fun k hk => counter k (List.mem_cons_of_mem _ hk)
  rw [offerHalves, dropped _ (s.withManagement { s.management with halves := [] }) rfl rfl kinds]
  exact ⟨rfl, rfl, ⟨[], rfl⟩, fun _ n hn => absurd hn List.not_mem_nil⟩

theorem readNext_unheard {reader : Reader} {s : State} {unit : Nat} (offered : Unheard s (offerHalves s)) :
    Unheard s (readNext reader s unit) := by
  have read := offered.trans (readUnit_unheard reader (offerHalves s) unit)
  exact ⟨read.link, read.config, read.management, read.kinds⟩

theorem readOn_unheard {reader : Reader} {units : List Nat} {s : State} (busy : s.link.sendingU.isSome = true)
    (untold : s.config.engine.notices[NoticeKind.counterHalf.index] = false) (kinds : halvesOnly s) :
    Unheard s (readOn reader units s) := by
  induction units generalizing s with
  | nil => exact .refl s
  | cons unit rest ih =>
    have first := readNext_unheard (reader := reader) (unit := unit) (offerHalves_unheard busy untold kinds)
    exact first.trans (ih (by rw [first.link]; exact busy) (by rw [first.config]; exact untold) (first.kinds kinds))

theorem untilFailure_length (st : Store) (units : List Nat) : (st.untilFailure units).length ≤ units.length := by
  induction units with
  | nil => exact Nat.le_refl _
  | cons u rest ih =>
    rw [Store.untilFailure]
    split
    · exact Nat.succ_le_succ (Nat.zero_le _)
    · exact Nat.succ_le_succ ih

/-- The last reads of an operation are told by nothing, where at most one unit is left or the kind is disabled. -/
theorem readOn_quiet {reader : Reader} {s : State} (busy : s.link.sendingU.isSome = true) (quiet : readsQuietly s)
    (none_ : s.management.halves = []) : Unheard s (readOn reader (s.store.untilFailure s.store.readsLeft) s) := by
  have kinds : halvesOnly s := by
    intro n hn
    rw [none_] at hn
    exact absurd hn List.not_mem_nil
  rcases quiet with one | untold
  · have short := (untilFailure_length s.store s.store.readsLeft).trans one
    match units : s.store.untilFailure s.store.readsLeft with
    | [] => exact .refl s
    | [u] => exact readNext_unheard (by rw [offerHalves_none s none_]; exact .refl s)
    | _ :: _ :: _ =>
      rw [units] at short
      simp at short
  · exact readOn_unheard busy untold kinds

/-! ### The end of an operation that reads (R114, R118) -/

/-- The state in which the operation in flight has read what was left and has ended. -/
def readsEnded (reader : Reader) (s : State) : State :=
  landed (readOn reader (s.store.untilFailure s.store.readsLeft) s)

section ending
variable {reader : Reader} {finish : Option Nat → State → State} {s : State}

theorem finishReads_of_waiting (waits : ¬ readsFree s) : finishReads reader finish s = s :=
  if_pos ⟨fun free => waits (.inl free), fun none_ => waits (.inr none_)⟩

theorem finishReads_of_free (free : readsFree s) :
    finishReads reader finish s = finish (s.store.firstFailure s.store.readsLeft) (readsEnded reader s) := by
  refine if_neg ?_
  rintro ⟨queued, left⟩
  exact free.elim queued left

/-- A store with its address trap replaced. -/
def Store.trapped (st : Store) (trap : Option Trap) : Store := { st with trap := trap }

/-- Ending clears the operation, counts, and may fill the address trap; the rest of the store is as before. -/
theorem readsEnded_only (reader : Reader) (s : State) :
    ∃ trap, NoticesOnly (s.withStore ((s.store.finished s.store.cells s.store.protection).trapped trap))
      (readsEnded reader s) := by
  obtain ⟨trap, store⟩ := readOn_store reader (s.store.untilFailure s.store.readsLeft) s
  have ended : readsEnded reader s = (readOn reader (s.store.untilFailure s.store.readsLeft) s).withStore
      ((s.store.finished s.store.cells s.store.protection).trapped trap) := by
    rw [readsEnded, landed, store]
    rfl
  rw [ended]
  exact ⟨trap, (readOn_only reader _ s).withStore _⟩

end ending

end Sys2Proof.Machine
end

section
/-! Verify and checksum (R123, R124): the reads between commands, and what their completions tell. -/

namespace Sys2Proof.Machine

/-! ### What goes unheard keeps room and queue (R171) -/

section unheard
variable {s t : State}

theorem Unheard.notices (h : Unheard s t) : sameNotices s t := by
  obtain ⟨_, management⟩ := h.management
  rw [sameNotices, management]
  exact ⟨rfl, rfl⟩

theorem Unheard.restart (h : Unheard s t) : t.management.restart = s.management.restart := by
  obtain ⟨_, management⟩ := h.management
  rw [management]

theorem Unheard.room {k : NoticeKind} (h : Unheard s t) (room : roomFor s k) : roomFor t k := by
  obtain ⟨busy, made, place⟩ := room
  exact ⟨by rw [h.link]; exact busy, by rw [h.config]; exact made, by rw [h.notices.1]; exact place⟩

/-- The last reads of an operation whose OP_DONE finds room go unheard, where they are quiet. -/
theorem readsEnded_unheard {reader : Reader} (busy : s.link.sendingU.isSome = true) (quiet : readsQuietly s)
    (none_ : s.management.halves = []) : Unheard s (readsEnded reader s) := by
  have read := readOn_quiet (reader := reader) busy quiet none_
  exact ⟨read.link, read.config, read.management, read.kinds⟩

end unheard

/-! ### A reading operation's completion (R114, R118) -/

/-- The completion of a reading operation whose end, whatever bytes it sees, is told by one OP_DONE. -/
theorem during_readsEnded {m : Moment} {s₀ s : State} {effect : State → State} {reader : Reader}
    {finish : Option Nat → State → State} {op : OpName} {tag : Byte} {result : DoneResult} {data : List Byte}
    (hs : Awake m s₀ s) (run : effect s = finishReads reader finish s)
    (ends : ∀ u, u.store.cells = s.store.cells →
      finish (s.store.firstFailure s.store.readsLeft) u = opDone op tag result data u) :
    ∃ t, during m s₀ effect = .next t ∧
      (¬ readsFree s → sameBlocks s t ∧ sameRest s t ∧ t.link = s.link ∧ sameNotices s t) ∧
      (readsFree s → ReadBeside s t ∧
        (s.management.restart = .none → roomFor s .opDone → readsQuietly s →
          Admitted s t (.opDone op tag result data))) := by
  by_cases free : readsFree s
  · obtain ⟨trap, ended⟩ := readsEnded_only reader s
    have done : effect s = opDone op tag result data (readsEnded reader s) := by
      rw [run, finishReads_of_free free]
      exact ends _ (congrArg (·.cells) ended.stores)
    have only := ended.trans (opDone_only op tag result data _).toNoticesOnly
    have last := offerHalves_only (opDone op tag result data (readsEnded reader s))
    have whole := only.trans last
    refine ⟨_, by rw [during_awake effect hs, done], fun waits => absurd free waits, fun _ => ⟨⟨?_, ?_, ?_, ?_, ?_,
      fun a => ?_, whole.besideStore, whole.control, whole.tool⟩, fun active room quiet => ?_⟩⟩
    · exact congrArg (·.flight) whole.stores
    · exact congrArg (·.region) whole.stores
    · exact congrArg (·.lock) whole.stores
    · exact congrArg (·.queue) whole.stores
    · exact congrArg (·.protection) whole.stores
    · exact congrArg (·.cells.get? a) whole.stores
    · have unheard := readsEnded_unheard (reader := reader) room.1 quiet hs.halves
      have told := opDone_admitted (op := op) (tag := tag) (result := result) (data := data)
        (unheard.restart.trans active) (unheard.room room)
      exact (told.since unheard.notices).mono (last.grows (by rw [(only.grows room.1).1]; exact room.1)).2
  · obtain ⟨blocks, rest⟩ := (PortUOnly.refl s).sameRest
    exact ⟨s, during_idle hs (by rw [run, finishReads_of_waiting free]), fun _ => ⟨blocks, rest, rfl, rfl, rfl⟩,
      fun there => absurd there free⟩

/-! ### How a verify and a checksum end (R123, R124) -/

section ends
variable {s : State} {tag : Byte}

theorem checksumCompleted_of_flight {a n : Nat} (hf : s.store.flight = some ⟨.checksum a n, tag⟩) :
    checksumCompleted s = finishReads .checksum (checksumDone tag a n) s := by rw [checksumCompleted, hf]

/-- How a verify's reads end it: at the unit that failed, or with what the image comes to. -/
def verifyFinish (cells : Cells) (act : Nat) : Option Nat → VerifyEnd
  | some a => .ecc a
  | none => verifyEnd cells act

theorem verifyCompleted_of_flight {act : Nat} (hf : s.store.flight = some ⟨.verify act, tag⟩) :
    verifyCompleted s =
      finishReads .verify (fun failure => verifyDone tag act (verifyFinish s.store.cells act failure)) s := by
  rw [verifyCompleted, hf]
  rfl

theorem firstFailure_of_sound {st : Store} {units : List Nat} (sound : units.find? st.unitFails = none) :
    st.firstFailure units = none := by rw [Store.firstFailure, sound, Option.map_none]

theorem firstFailure_of_failing {st : Store} {units : List Nat} {u : Nat} (fails : units.find? st.unitFails = some u) :
    st.firstFailure units = some (16 * u) := by rw [Store.firstFailure, fails, Option.map_some]

/-- A unit found failing is one of the units, and not sound. -/
theorem not_sound {st : Store} {units : List Nat} {u : Nat} (fails : units.find? st.unitFails = some u) :
    ¬ ∀ u ∈ units, st.unitFails u = false := by
  intro sound
  have bad := List.find?_some fails
  rw [sound u (List.mem_of_find?_eq_some fails)] at bad
  exact Bool.false_ne_true bad

/-- The OP_DONE of a verify: its result and data (R118, R123). -/
def verifyReport (act : Nat) : VerifyEnd → DoneResult × List Byte
  | .compared computed stored =>
    (if computed = stored then .match_ else .mismatch, verifyData act (some (computed, stored)) none)
  | .noAct => (.noAct, verifyData act none none)
  | .ecc a => (.ecc, verifyData act none (some a))

theorem verifyDone_eq (act : Nat) (finish : VerifyEnd) (u : State) :
    verifyDone tag act finish u =
      opDone .verify tag (verifyReport act finish).1 (verifyReport act finish).2 u := by cases finish <;> rfl

theorem verifyEnd_of_absent {cells : Cells} {act : Nat}
    (h : (dirEntry cells act).all (fun d => !d.wellFormed) = true) : verifyEnd cells act = .noAct := by
  unfold verifyEnd
  split
  · rfl
  · next d entry =>
    rw [entry, Option.all_some, Bool.not_eq_true'] at h
    rw [h]
    rfl

theorem verifyEnd_of_entry {cells : Cells} {act : Nat} {d : DirEntry} (entry : dirEntry cells act = some d)
    (wellFormed : d.wellFormed = true) : verifyEnd cells act = .compared (crc32 (d.image cells)) d.crc := by
  rw [verifyEnd, entry]
  exact if_pos wellFormed

end ends

end Sys2Proof.Machine

namespace Sys2Proof.Proofs

open Sys2Proof.Machine

/-- What a command finds of the operation in flight's reads: O36's first part. -/
theorem atMoment_reads (m : Moment) (s₀ : State) :
    let t := atMoment m s₀
    sameOutside (s₀.withClock m.clock) t ∧ sameScore s₀ t ∧ sameCues s₀ t ∧ sameScreens s₀ t ∧ samePortD s₀ t ∧
      sameRequests s₀ t ∧ t.control = s₀.control ∧ t.tools = s₀.tools ∧
      t.store = { s₀.store with
        faults := m.faults, trap := t.store.trap, region := t.store.region, reads := t.store.reads } := by
  have store := (atMoment_only m s₀).store
  obtain ⟨_, _, _, only⟩ := atMoment_only m s₀
  exact ⟨only.outside, only.score, ⟨only.staging, only.firing⟩, ⟨only.channels, only.placements⟩, only.portD,
    only.requests, only.control, only.tool, store⟩

/-- Settles O36: the reads between commands, and the one OP_DONE in which each reading operation ends. -/
theorem verifyAndChecksumReport : Obligations.VerifyAndChecksumReport := by
  refine ⟨fun m s₀ => ?_, fun m a n tag s₀ s hs hf => ?_, fun m act tag s₀ s hs hf => ?_⟩
  · obtain ⟨outside, score, cues, screens, portD, requests, control, tools, store⟩ := atMoment_reads m s₀
    exact ⟨outside, score, cues, screens, portD, requests, control, tools, store, atMoment_plain m s₀,
      atMoment_reads_of_queued, atMoment_reads_of_sound, fun u rest => atMoment_reads_of_failing⟩
  · cases failure : s.store.readsLeft.find? s.store.unitFails with
    | none =>
      obtain ⟨t, run, waiting, ended⟩ := during_readsEnded hs (checksumCompleted_of_flight hf) (fun u cells => by
        rw [firstFailure_of_sound failure, checksumDone, cells])
      refine ⟨t, run, waiting, fun free => ⟨(ended free).1, fun active room quiet => ⟨fun _ => ?_, nofun⟩⟩⟩
      exact (ended free).2 active room quiet
    | some u =>
      obtain ⟨t, run, waiting, ended⟩ := during_readsEnded hs (checksumCompleted_of_flight hf) (fun _ _ => by
        rw [firstFailure_of_failing failure, checksumDone])
      refine ⟨t, run, waiting, fun free => ⟨(ended free).1, fun active room quiet =>
        ⟨fun sound => absurd sound (not_sound failure), fun v hv => ?_⟩⟩⟩
      obtain rfl := Option.some.inj hv
      exact (ended free).2 active room quiet
  · obtain ⟨t, run, waiting, ended⟩ := during_readsEnded hs (verifyCompleted_of_flight hf)
      (fun u _ => verifyDone_eq act (verifyFinish s.store.cells act (s.store.firstFailure s.store.readsLeft)) u)
    refine ⟨t, run, waiting, fun free => ⟨(ended free).1, fun active room quiet => ⟨fun u failure => ?_, fun sound =>
      ⟨fun absent => ?_, fun d entry wellFormed => ?_⟩⟩⟩⟩
    all_goals have told := (ended free).2 active room quiet
    · rw [firstFailure_of_failing failure] at told
      exact told
    · rw [firstFailure_of_sound (List.find?_eq_none.2 fun u hu => by rw [sound u hu]; decide), verifyFinish,
        verifyEnd_of_absent absent] at told
      exact told
    · rw [firstFailure_of_sound (List.find?_eq_none.2 fun u hu => by rw [sound u hu]; decide), verifyFinish,
        verifyEnd_of_entry entry wellFormed] at told
      exact told

end Sys2Proof.Proofs
end

section
/-! The load checks over an act image (R126, R187): header, records, and how the load ends. -/

namespace Sys2Proof.Machine

/-! ### Numbers of a few bytes (R186) -/

theorem ofBe_lt (bytes : List Byte) : ofBe bytes < 256 ^ bytes.length := by
  have grows : ∀ (bytes : List Byte) (a k : Nat), a < 256 ^ k →
      bytes.foldl (fun a (b : Byte) => a * 256 + b.toNat) a < 256 ^ (k + bytes.length) := by
    intro bytes
    induction bytes with
    | nil => exact fun _ _ h => h
    | cons b rest ih =>
      intro a k h
      have byte := b.isLt
      rw [List.foldl_cons, List.length_cons, ← Nat.add_assoc, Nat.add_right_comm]
      refine ih _ (k + 1) ?_
      rw [Nat.pow_succ]
      omega
  have all := grows bytes 0 0 (by decide)
  rwa [Nat.zero_add] at all

theorem fieldNat_lt (bytes : List Byte) (offset k : Nat) : fieldNat bytes offset k < 256 ^ k := by
  have h := ofBe_lt (field bytes offset k)
  rwa [field, List.length_map, List.length_range] at h

/-! ### The header (R126, R187) -/

theorem headerOf_checks {image : List Byte} {cues : Nat} {h : ImageHeader} (hh : headerOf image cues = some h) :
    h.cues = cues ∧ 1 ≤ h.langs.length ∧ h.langs.length ≤ 6 := by
  unfold headerOf at hh
  dsimp only at hh
  split at hh
  · next checks =>
    obtain ⟨-, low, high, same, -⟩ := checks
    rw [← Option.some.inj hh]
    simp only [List.length_map, List.length_range]
    exact ⟨same, low, high⟩
  · cases hh

/-! ### One record (R30, R126, R187) -/

/-- What the checks on a record alone say of its cue, in an image of some languages (R30, R126). -/
structure RecordSound (langs : Nat) (c : Cue) : Prop where
  number : 1 ≤ c.label.number.toNat ∧ c.label.number.toNat ≤ 9999
  suffix : c.label.suffix = 0 ∨ (0x41 ≤ c.label.suffix.toNat ∧ c.label.suffix.toNat ≤ 0x5A)
  mark : c.mark ≤ 16777215
  lead : c.lead ≤ 5000
  slots : c.slots.length = langs
  count : ∀ k, c.trigger = .count k → 1 ≤ k ∧ k ≤ 64
  follow : ∀ k, c.trigger = .follow k → k ≤ 60000

theorem everySlot_length {slots : List (Option Slot)} {given : List Slot} (h : everySlot slots = some given) :
    given.length = slots.length := by
  induction slots generalizing given with
  | nil =>
    obtain rfl := Option.some.inj h
    rfl
  | cons slot rest ih =>
    cases slot with
    | none => cases h
    | some x =>
      obtain ⟨later, hl, rfl⟩ := Option.map_eq_some_iff.1 h
      rw [List.length_cons, List.length_cons, ih hl]

theorem triggerOf_range {kind parameter : Nat} {t : Trigger} (h : triggerOf kind parameter = some t) :
    (∀ k, t = .count k → 1 ≤ k ∧ k ≤ 64) ∧ (∀ k, t = .follow k → k ≤ 60000) := by
  unfold triggerOf at h
  split at h
  · cases h
    exact ⟨nofun, nofun⟩
  · cases h
    exact ⟨nofun, nofun⟩
  · split at h
    · next range =>
      cases h
      exact ⟨fun k hk => by cases hk; exact range, nofun⟩
    · cases h
  · split at h
    · next range =>
      cases h
      exact ⟨nofun, fun k hk => by cases hk; exact range⟩
    · cases h
  · cases h

theorem cueOf_sound {image : List Byte} {base : Nat} {h : ImageHeader} {i : Nat} {c : Cue}
    (hc : cueOf image base h i = some c) : RecordSound h.langs.length c := by
  unfold cueOf at hc
  dsimp only at hc
  split at hc
  · next trigger slots htrigger hslots =>
    split at hc
    · next checks =>
      obtain ⟨label, lead⟩ := checks
      obtain ⟨count, follow⟩ := triggerOf_range htrigger
      have given := everySlot_length hslots
      rw [List.length_map, List.length_range] at given
      simp only [labelOk, Bool.and_eq_true, Bool.or_eq_true, decide_eq_true_eq] at label
      obtain ⟨number, suffix⟩ := label
      obtain rfl := Option.some.inj hc
      exact ⟨number, suffix, Nat.le_of_lt_succ (fieldNat_lt image _ 3), lead, given, count, follow⟩
    · cases hc
  · cases hc

/-! ### The records in index order (R126) -/

/-- Labels all different and marks rising, each record sound by itself. -/
structure RecordsSound (langs : Nat) (cues : List Cue) : Prop where
  each : ∀ c ∈ cues, RecordSound langs c
  labels : (cues.map (·.label)).Nodup
  marks : cues.Pairwise (fun x y => x.mark ≤ y.mark)

theorem RecordsSound.nil (langs : Nat) : RecordsSound langs [] := ⟨nofun, List.nodup_nil, .nil⟩

/-- A record that may follow keeps the list sound. -/
theorem RecordsSound.snoc {langs : Nat} {before : List Cue} {c : Cue} (hb : RecordsSound langs before)
    (hc : RecordSound langs c) (hf : follows before c = true) : RecordsSound langs (before ++ [c]) := by
  simp only [follows, Bool.and_eq_true, List.all_eq_true, decide_eq_true_eq] at hf
  obtain ⟨fresh, last⟩ := hf
  have above : ∀ x ∈ before, x.mark ≤ c.mark := by
    intro x hx
    obtain ⟨init, y, rfl⟩ := (List.eq_nil_or_concat' before).resolve_left (List.ne_nil_of_mem hx)
    have ylast : y.mark ≤ c.mark := by simpa using last
    rcases List.mem_append.1 hx with early | late
    · exact ((List.pairwise_append.1 hb.marks).2.2 x early y List.mem_cons_self).trans ylast
    · rw [List.mem_singleton.1 late]
      exact ylast
  refine ⟨fun x hx => ?_, ?_, ?_⟩
  · rcases List.mem_append.1 hx with early | late
    · exact hb.each x early
    · rw [List.mem_singleton.1 late]
      exact hc
  · rw [List.map_append, List.nodup_append]
    refine ⟨hb.labels, List.nodup_singleton _, ?_⟩
    intro l hl m hm
    obtain ⟨x, hx, rfl⟩ := List.mem_map.1 hl
    rw [List.mem_singleton.1 hm]
    exact fresh x hx
  · refine List.pairwise_append.2 ⟨hb.marks, List.pairwise_singleton _ _, fun x hx y hy => ?_⟩
    rw [List.mem_singleton.1 hy]
    exact above x hx

section records
variable {image : List Byte} {base : Nat} {h : ImageHeader}

/-- Reading k records after some sound ones: all of them, sound, or the index of one of them. -/
theorem recordsFrom_cases (k : Nat) (before : List Cue) (hb : RecordsSound h.langs.length before) :
    (∀ i, recordsFrom image base h k before = .failing i → i < before.length + k) ∧
      (∀ cues, recordsFrom image base h k before = .good cues →
        cues.length = before.length + k ∧ RecordsSound h.langs.length cues) := by
  induction k generalizing before with
  | zero =>
    refine ⟨nofun, fun cues good => ?_⟩
    cases good
    exact ⟨rfl, hb⟩
  | succ k ih =>
    unfold recordsFrom
    split
    · refine ⟨fun i failing => ?_, nofun⟩
      cases failing
      omega
    · next c hc =>
      split
      · next may =>
        obtain ⟨bad, good⟩ := ih (before ++ [c]) (hb.snoc (cueOf_sound hc) may)
        rw [List.length_append, List.length_singleton] at bad good
        exact ⟨fun i failing => by have := bad i failing; omega, fun cues read => by
          obtain ⟨all, sound⟩ := good cues read
          exact ⟨by omega, sound⟩⟩
      · refine ⟨fun i failing => ?_, nofun⟩
        cases failing
        omega

end records

/-! ### How a load ends, check by check (R126) -/

section ends
variable {cells : Cells} {act : Nat} {d : DirEntry} {h : ImageHeader}

theorem loadEnd_of_absent (none_ : dirEntry cells act = none) : loadEnd cells act = .noAct := by rw [loadEnd, none_]

theorem loadable_iff : d.loadable = true ↔ d.wellFormed = true ∧ 1 ≤ d.cues ∧ d.cues ≤ 1024 := by
  simp [DirEntry.loadable, and_assoc]

theorem loadEnd_of_unloadable (entry : dirEntry cells act = some d)
    (bad : d.wellFormed = false ∨ d.cues = 0 ∨ 1024 < d.cues) : loadEnd cells act = .corrupt none := by
  rw [loadEnd, entry]
  refine if_pos fun loadable => ?_
  obtain ⟨wellFormed, low, high⟩ := loadable_iff.1 loadable
  rcases bad with ill | zero | many
  · rw [wellFormed] at ill
    cases ill
  · omega
  · omega

theorem loadEnd_of_loadable (entry : dirEntry cells act = some d) (loadable : d.loadable = true) :
    loadEnd cells act = if crc32 (d.image cells) ≠ d.crc then .check else imageEnd (d.image cells) d := by
  rw [loadEnd, entry]
  exact if_neg (not_not.2 loadable)

theorem loadEnd_of_same (entry : dirEntry cells act = some d) (loadable : d.loadable = true)
    (same : crc32 (d.image cells) = d.crc) : loadEnd cells act = imageEnd (d.image cells) d :=
  (loadEnd_of_loadable entry loadable).trans (if_neg (not_not.2 same))

/-- What a sound header and its records say of a load that comes to them. -/
theorem imageEnd_checks {image : List Byte} (header : headerOf image d.cues = some h) :
    (∀ i, recordsFrom image (d.first * 4096) h h.cues [] = .failing i →
      imageEnd image d = .corrupt (some i) ∧ i < d.cues) ∧
    (∀ cues, recordsFrom image (d.first * 4096) h h.cues [] = .good cues →
      imageEnd image d = .success ⟨d.first, d.count⟩ h.langs h.beat cues ∧ cues.length = d.cues ∧
        RecordsSound h.langs.length cues) := by
  obtain ⟨count, -, -⟩ := headerOf_checks header
  obtain ⟨bad, good⟩ := recordsFrom_cases (image := image) (base := d.first * 4096) h.cues [] (.nil h.langs.length)
  rw [List.length_nil, Nat.zero_add, count] at bad good
  rw [imageEnd, header]
  dsimp only
  rw [count]
  refine ⟨fun i failing => ?_, fun cues read => ?_⟩
  · rw [failing]
    exact ⟨rfl, bad i failing⟩
  · rw [read]
    obtain ⟨all, sound⟩ := good cues read
    exact ⟨rfl, all, sound⟩

end ends

end Sys2Proof.Machine
end

section
/-! LOAD_ACT's completion (R126, R127): the region taken while it reads, and what each end leaves and tells. -/

namespace Sys2Proof.Machine

/-! ### The region of a load in flight (R129) -/

/-- After reads between commands a load that has read its entry has taken its region, where check 2 passes. -/
theorem readAhead_region {n act : Nat} {tag : Byte} {d : DirEntry} {s : State}
    (flight : s.store.flight = some ⟨.load act, tag⟩) (free : s.store.queue = [])
    (entry : dirEntry s.store.cells act = some d) (loadable : d.loadable = true)
    (begun : (readAhead n s).store.reads ≠ 0) : (readAhead n s).store.region = some ⟨d.first, d.count⟩ := by
  have work : ∃ units, s.store.work = some (.load, units) := by rw [Store.work, flight]; exact ⟨_, rfl⟩
  obtain ⟨units, work⟩ := work
  have run : readAhead n s =
      regionTaken (readOn .load (s.store.beforeFailure (s.store.readsLeft.take n)) s) := by
    rw [readAhead, work]
    exact if_pos free
  rw [run] at begun ⊢
  obtain ⟨_, read⟩ := readOn_store .load (s.store.beforeFailure (s.store.readsLeft.take n)) s
  obtain ⟨_, taken⟩ := regionTaken_store (readOn .load (s.store.beforeFailure (s.store.readsLeft.take n)) s)
  rw [taken] at begun
  rw [regionTaken, show (readOn _ _ s).store.flight = some ⟨.load act, tag⟩ by rw [read]; exact flight]
  dsimp only
  rw [show dirEntry (readOn _ _ s).store.cells act = some d by rw [read]; exact entry]
  dsimp only
  rw [if_pos ⟨Nat.pos_of_ne_zero begun, loadable⟩]
  rfl

/-! ### How a load's reads end it -/

/-- How a load's reads end it: at the unit that failed, or with what its checks come to. -/
def loadFinish (cells : Cells) (act : Nat) : Option Nat → LoadEnd
  | some a => .ecc a
  | none => loadEnd cells act

/-- The state in which a load has read what was left, has ended at e, and COUNTER_HALF was offered. -/
def loadEnded (tag : Byte) (act : Nat) (e : LoadEnd) (s : State) : State :=
  offerHalves (loadEnds tag act e (readsEnded .load s))

theorem during_loadCompleted {m : Moment} {act : Nat} {tag : Byte} {s₀ s : State} (hs : Awake m s₀ s)
    (flight : s.store.flight = some ⟨.load act, tag⟩) : ∃ t, during m s₀ loadCompleted = .next t ∧
      (¬ readsFree s → t = s) ∧
      (readsFree s →
        t = loadEnded tag act (loadFinish s.store.cells act (s.store.firstFailure s.store.readsLeft)) s) := by
  have run : loadCompleted s =
      finishReads .load (fun failure => loadEnds tag act (loadFinish s.store.cells act failure)) s := by
    rw [loadCompleted, flight]
    rfl
  by_cases free : readsFree s
  · exact ⟨_, by rw [during_awake _ hs, run, finishReads_of_free free]; rfl, fun waits => absurd free waits,
      fun _ => rfl⟩
  · exact ⟨s, during_idle hs (by rw [run, finishReads_of_waiting free]), fun _ => rfl, fun there => absurd there free⟩

/-- What every end of a load keeps. -/
structure LoadKeeps (s t : State) : Prop where
  outside : sameOutside s t
  cells : t.store.cells = s.store.cells
  protection : t.store.protection = s.store.protection
  requests : sameRequests s t
  flight : t.store.flight = none

/-! ### A load that fails (R127, R129) -/

/-- No region loaded, and no load under way. -/
def loadDropped (s : State) : State :=
  (s.withStore { s.store with region := none }).withControl { s.control with loading := false }

theorem NoticesOnly.loadDropped {s t : State} (h : NoticesOnly s t) :
    NoticesOnly (Machine.loadDropped s) (Machine.loadDropped t) where
  outside := h.outside
  score := h.score
  placements := h.placements
  control := congrArg (fun c : Control => { c with loading := false }) h.control
  store := (h.toFiresOnly.withRegion none).store
  requests := h.requests
  tools := h.tools
  grows := h.grows
  firing := h.firing
  entries := h.entries
  staging := h.staging
  stores := congrArg (fun st : Store => { st with region := none }) h.stores
  channels := h.channels
  tool := h.tool
  portD := h.portD

/-- What a failed load leaves and tells. -/
def LoadFailed (tag : Byte) (result : DoneResult) (data : List Byte) (s t : State) : Prop :=
  sameScore s t ∧ sameCues s t ∧ sameScreens s t ∧ t.control = { s.control with loading := false } ∧
    t.store.region = none ∧ samePortD s t ∧ t.tools = s.tools ∧
    (s.management.restart = .none → roomFor s .opDone → readsQuietly s → Admitted s t (.opDone .load tag result data))

theorem loadFails_ended (tag : Byte) (result : DoneResult) (data : List Byte) {s : State}
    (none_ : s.management.halves = []) :
    let t := offerHalves (loadFails tag result data (readsEnded .load s))
    LoadKeeps s t ∧ LoadFailed tag result data s t := by
  obtain ⟨trap, ended⟩ := readsEnded_only .load s
  have only := ended.loadDropped.trans
    (opDone_only .load tag result data (loadDropped (readsEnded .load s))).toNoticesOnly
  have last := offerHalves_only (loadFails tag result data (readsEnded .load s))
  have whole := only.trans last
  obtain ⟨outside, score, cues, screens, portD, requests⟩ := whole.besideStore
  refine ⟨⟨outside, congrArg (·.cells) whole.stores, congrArg (·.protection) whole.stores, requests,
    congrArg (·.flight) whole.stores⟩, score, cues, screens, whole.control, congrArg (·.region) whole.stores, portD,
    whole.tool, fun active room quiet => ?_⟩
  have unheard := readsEnded_unheard (reader := .load) room.1 quiet none_
  have told : Admitted (loadDropped (readsEnded .load s)) _ _ :=
    opDone_admitted (op := .load) (tag := tag) (result := result) (data := data)
      (unheard.restart.trans active) (unheard.room room)
  exact (told.since unheard.notices).mono (last.grows ((congrArg Option.isSome (only.grows room.1).1).trans room.1)).2

/-- An end that fails the load with a result and data leaves and tells what a failed load does. -/
theorem LoadFailed.of_ended {tag : Byte} {act : Nat} {e : LoadEnd} {s t : State} {data : List Byte}
    (none_ : s.management.halves = []) (ended : t = loadEnded tag act e s) (result : DoneResult)
    (fails : loadEnds tag act e = loadFails tag result data) : LoadFailed tag result data s t := by
  rw [ended, loadEnded, fails]
  exact (loadFails_ended tag result data none_).2

/-! ### A load that succeeds (R127, R135) -/

section success
variable (tag : Byte) (act : Nat) (region : Region) (langs : List Code) (beat : Nat) (cues : List Cue)

/-- The act placed on both sides of a width of counting. -/
theorem NoticesOnly.actPlaced {s t : State} (h : NoticesOnly s t) :
    NoticesOnly (Machine.actPlaced act region langs beat cues s) (Machine.actPlaced act region langs beat cues t) := by
  obtain ⟨-, -, -, config, clock, -⟩ := h.outside
  refine { h.withStore ((Machine.actPlaced act region langs beat cues s).store) with
    score := ⟨?_, ?_⟩, control := rfl, store := ?_, firing := rfl, entries := rfl, staging := rfl, stores := ?_ }
  · exact congrArg₂ (fun (k : Tracker) time => k.resetTo beat time) h.score.1 clock
  · exact congrArg (fun c : Configuration =>
      ({ cues := cues, langs := langs, beat := some beat, map := buildMap c langs } : CueTable)) config
  · exact (h.toFiresOnly.withRegion (some region)).store
  · exact congrArg (fun st : Store => { st with region := some region }) h.stores

theorem sameOutside.trans {s t u : State} (h : sameOutside s t) (k : sameOutside t u) : sameOutside s u := by
  obtain ⟨pending, powered, straps, config, clock, address⟩ := h
  obtain ⟨pending', powered', straps', config', clock', address'⟩ := k
  exact ⟨pending'.trans pending, powered'.trans powered, straps'.trans straps, config'.trans config, clock'.trans clock,
    address'.trans address⟩

theorem sameRequests.trans {s t u : State} (h : sameRequests s t) (k : sameRequests t u) : sameRequests s u := by
  obtain ⟨fifo, handling, valid⟩ := h
  obtain ⟨fifo', handling', valid'⟩ := k
  exact ⟨fifo'.trans fifo, handling'.trans handling, valid'.trans valid⟩

/-- Placing the act leaves what is outside the show, the requests and the overlay. -/
theorem actPlaced_keeps (s : State) : sameOutside s (Machine.actPlaced act region langs beat cues s) ∧
    sameRequests s (Machine.actPlaced act region langs beat cues s) ∧
    (Machine.actPlaced act region langs beat cues s).placements = s.placements :=
  ⟨⟨rfl, rfl, rfl, rfl, rfl, rfl⟩, ⟨rfl, rfl, rfl⟩, rfl⟩

/-- The OP_DONE of a load that succeeds, as a notice. -/
def loadedNotice : Notice :=
  .opDone .load tag .ok (be 1 act ++ [1] ++ be 2 cues.length ++ be 1 langs.length ++ [0, 0])

/-- The SHOW_STATE of a load that succeeds, as a notice. -/
def presetNotice (clock : Time) : Notice :=
  .showState .dark .preset .loadAct (some tag) (some act) ⟨0, (cues[0]?).map (·.label)⟩ none (millis clock)

/-- The placed act with OP_DONE told. -/
def presetTold (s : State) : State :=
  opDone .load tag .ok (loadData act (some (cues.length, langs.length)) none none)
    (actPlaced act region langs beat cues s)

theorem presetTold_only (s : State) :
    PortUOnly (actPlaced act region langs beat cues s) (presetTold tag act region langs beat cues s) :=
  opDone_only .load tag .ok _ _

/-- The state of a load that succeeds before its SHOW_STATE. -/
def presetStaged (s : State) : State := stage (emptyChannels .blank (presetTold tag act region langs beat cues s))

theorem loadSucceeds_eq (s : State) : loadSucceeds tag act region langs beat cues s =
    showNotice .dark .loadAct (some tag) (presetStaged tag act region langs beat cues s) := rfl

/-- From the placed act on, the channels are emptied, staging looks for work and OP_DONE is told. -/
theorem presetStaged_blocks (s : State) :
    let t := presetStaged tag act region langs beat cues s
    ScreensOnly (actPlaced act region langs beat cues s) t ∧ t.staging.awaited = [] ∧
      ∀ n : Fin 8, s.config.channels[n].enabled = true → ClearedTo .blank s.channels[n] t.channels[n] := by
  have told := presetTold_only tag act region langs beat cues s
  unfold presetStaged
  generalize presetTold tag act region langs beat cues s = u at told
  have emptied := emptyChannels_only .blank u
  obtain ⟨channels, -, awaited⟩ := stage_beside (emptyChannels .blank u)
  obtain ⟨-, -, -, config, -, -⟩ := told.outside
  refine ⟨(told.toScreensOnly.trans emptied.toScreensOnly).trans (stage_only _), ?_, fun n enabled => ?_⟩
  · rw [awaited, emptied.staging, told.staging]
    rfl
  · have cleared := (emptyChannels_channels .blank n u).1 (by rw [config]; exact enabled)
    rw [told.channels] at cleared
    rw [channels]
    exact cleared

theorem emptyChannels_management (layer : Layer) (s : State) : (emptyChannels layer s).management = s.management := by
  refine forChannels_keeps (fun s t => t.management = s.management) (fun _ => rfl) (fun _ _ _ h k => k.trans h) _ ?_ s
  intro n t
  unfold emptyChannel
  split
  · exact recompose_management n _ _
  · rfl

/-- Given room, the state before SHOW_STATE has OP_DONE queued, and its discarded flag is clear. -/
theorem presetStaged_tells {s : State} (active : s.management.restart = .none) (room : roomFor s .opDone) :
    (presetStaged tag act region langs beat cues s).management.notices =
        s.management.notices ++ [⟨s.management.discarded, loadedNotice tag act langs cues⟩] ∧
      (presetStaged tag act region langs beat cues s).management.discarded = false := by
  have told : presetTold tag act region langs beat cues s = _ :=
    (if_pos active).trans (notify_room _ (actPlaced act region langs beat cues s) room)
  obtain ⟨-, -, -, kept⟩ := stage_kept (emptyChannels .blank (presetTold tag act region langs beat cues s))
  rw [presetStaged, kept, emptyChannels_management, told]
  exact ⟨rfl, rfl⟩

/-- Given room for both, OP_DONE and SHOW_STATE are admitted in this order. -/
theorem loadSucceeds_tells {s : State} (active : s.management.restart = .none) (done : roomFor s .opDone)
    (shown : roomFor s .showState) (places : s.management.notices.length + 2 ≤ 32) :
    (s.management.notices ++ [⟨s.management.discarded, loadedNotice tag act langs cues⟩,
        ⟨false, presetNotice tag act cues s.clock⟩]) <+:
      (loadSucceeds tag act region langs beat cues s).management.notices := by
  obtain ⟨width, -, -⟩ := presetStaged_blocks tag act region langs beat cues s
  obtain ⟨notices, discarded⟩ := presetStaged_tells tag act region langs beat cues active done
  obtain ⟨busy, made, -⟩ := shown
  obtain ⟨-, -, -, config, clock, -⟩ := width.outside
  have room : roomFor (presetStaged tag act region langs beat cues s) .showState := by
    refine ⟨?_, by rw [config]; exact made, ?_⟩
    · rw [(width.grows busy).1]
      exact busy
    · rw [notices, List.length_append, List.length_singleton]
      exact places
  have notice : Notice.showState .dark (presetStaged tag act region langs beat cues s).control.show_ .loadAct (some tag)
      (presetStaged tag act region langs beat cues s).control.act
      (pointerPlace (presetStaged tag act region langs beat cues s))
      (lastPlace (presetStaged tag act region langs beat cues s))
      (millis (presetStaged tag act region langs beat cues s).clock) = presetNotice tag act cues s.clock := by
    rw [pointerPlace, lastPlace, width.control, width.firing, width.score.2, clock]
    rfl
  have told := notify_admitted _ (presetStaged tag act region langs beat cues s)
    (show roomFor _ (presetNotice tag act cues s.clock).kind from room)
  rw [Admitted, notices, discarded, List.append_assoc] at told
  rw [loadSucceeds_eq, showNotice, notice]
  exact told

/-- What a load that succeeds places and tells. -/
def LoadPlaced (s t : State) : Prop :=
  t.table = { cues := cues, langs := langs, beat := some beat, map := buildMap s.config langs } ∧
    t.control = ⟨.preset, some act, false⟩ ∧ t.tracker = s.tracker.resetTo beat s.clock ∧
    t.firing = Firing.initial ∧ t.staging.entries = [] ∧ t.staging.awaited = [] ∧ t.store.region = some region ∧
    t.placements = s.placements ∧
    (∀ n : Fin 8, s.config.channels[n].enabled = true → t.channels[n].layer = .blank ∧ t.channels[n].queue = [] ∧
      t.channels[n].current = none ∧ t.channels[n].reading = s.channels[n].reading) ∧
    (s.management.restart = .none → roomFor s .opDone → roomFor s .showState →
      s.management.notices.length + 2 ≤ 32 → readsQuietly s →
      (s.management.notices ++ [⟨s.management.discarded, loadedNotice tag act langs cues⟩,
        ⟨false, presetNotice tag act cues s.clock⟩]) <+: t.management.notices)

theorem loadSucceeds_ended {s : State} (none_ : s.management.halves = []) :
    let t := offerHalves (loadSucceeds tag act region langs beat cues (readsEnded .load s))
    LoadKeeps s t ∧ LoadPlaced tag act region langs beat cues s t := by
  obtain ⟨trap, ended⟩ := readsEnded_only .load s
  obtain ⟨width, awaited, cleared⟩ := presetStaged_blocks tag act region langs beat cues (readsEnded .load s)
  have tells := loadSucceeds_tells tag act region langs beat cues (s := readsEnded .load s)
  rw [loadSucceeds_eq] at tells ⊢
  generalize presetStaged tag act region langs beat cues (readsEnded .load s) = staged at width awaited cleared tells
  have shown := showNotice_only .dark .loadAct (some tag) staged
  generalize showNotice .dark .loadAct (some tag) staged = told at shown tells
  have last := offerHalves_only told
  have after := shown.toNoticesOnly.trans last
  have whole := ((ended.actPlaced act region langs beat cues).toScreensOnly.trans width).trans after.toScreensOnly
  obtain ⟨queue, suspended, store⟩ := whole.store
  have ⟨outside, requests, placements⟩ := actPlaced_keeps act region langs beat cues
    (s.withStore ((s.store.finished s.store.cells s.store.protection).trapped trap))
  obtain ⟨-, -, -, config, clock, -⟩ := ended.outside
  refine ⟨⟨sameOutside.trans outside whole.outside, congrArg (·.cells) store, congrArg (·.protection) store,
    sameRequests.trans requests whole.requests,
    congrArg (·.flight) store⟩, whole.score.2, whole.control, whole.score.1, whole.firing, whole.entries, ?_,
    congrArg (·.region) store, whole.placements.trans placements, fun n enabled => ?_,
    fun active done place places quiet => ?_⟩
  · rw [after.staging]
    exact awaited
  · obtain ⟨layer, current, -, queue, -, -, reading, -, -⟩ := cleared n (by rw [config]; exact enabled)
    rw [after.channels]
    rw [ended.channels] at reading
    exact ⟨layer, queue, current, reading⟩
  · have unheard := readsEnded_unheard (reader := .load) done.1 quiet none_
    obtain ⟨same, flag⟩ := unheard.notices
    have queued := tells (unheard.restart.trans active) (unheard.room done) (unheard.room place)
      (by rw [same]; exact places)
    rw [same, flag, clock] at queued
    have busy : (readsEnded .load s).link.sendingU.isSome = true := by rw [unheard.link]; exact done.1
    refine queued.trans (last.grows ?_).2
    rw [((width.trans shown.toScreensOnly).grows busy).1]
    exact busy

end success

end Sys2Proof.Machine

namespace Sys2Proof.Proofs

open Sys2Proof.Machine

/-- The region of a load in flight at the moment of a command: O41's second part. -/
theorem atMoment_region {m : Moment} {act : Nat} {tag : Byte} {d : DirEntry} {s₀ : State}
    (flight : s₀.store.flight = some ⟨.load act, tag⟩) (free : s₀.store.queue = [])
    (entry : dirEntry s₀.store.cells act = some d) (loadable : d.loadable = true)
    (begun : (atMoment m s₀).store.reads ≠ 0) : (atMoment m s₀).store.region = some ⟨d.first, d.count⟩ := by
  rw [atMoment_store] at begun ⊢
  exact readAhead_region (s := (s₀.withClock m.clock).withStore (s₀.store.conditioned m.faults)) (tag := tag) flight
    free entry loadable begun

/-- The checks of a load in their order: O41's third part. -/
theorem loadEnd_checks {cells : Cells} {act : Nat} {d : DirEntry} {h : ImageHeader}
    (entry : dirEntry cells act = some d)
    (loadable : d.loadable = true) (same : crc32 (d.image cells) = d.crc)
    (header : headerOf (d.image cells) d.cues = some h) :
    (∀ i, recordsFrom (d.image cells) (d.first * 4096) h h.cues [] = .failing i →
      loadEnd cells act = .corrupt (some i) ∧ i < d.cues) ∧
    (∀ cues, recordsFrom (d.image cells) (d.first * 4096) h h.cues [] = .good cues →
      loadEnd cells act = .success ⟨d.first, d.count⟩ h.langs h.beat cues ∧ cues.length = d.cues ∧
        1 ≤ h.langs.length ∧ h.langs.length ≤ 6 ∧ beatSound h.beat ∧ RecordsSound h.langs.length cues) := by
  obtain ⟨-, some_, few⟩ := headerOf_checks header
  obtain ⟨failing, good⟩ := imageEnd_checks header
  rw [loadEnd_of_same entry loadable same]
  refine ⟨failing, fun cues read => ?_⟩
  obtain ⟨ends, count, sound⟩ := good cues read
  exact ⟨ends, count, some_, few, headerOf_beatSound header, sound⟩

/-- Every end of a load keeps what is outside, the bytes, the flags and the requests, and leaves nothing in flight. -/
theorem loadEnded_keeps (tag : Byte) (act : Nat) (e : LoadEnd) {s : State} (none_ : s.management.halves = []) :
    LoadKeeps s (loadEnded tag act e s) := by
  cases e with
  | success region langs beat cues => exact (loadSucceeds_ended tag act region langs beat cues none_).1
  | noAct => exact (loadFails_ended tag _ _ none_).1
  | corrupt index => exact (loadFails_ended tag _ _ none_).1
  | check => exact (loadFails_ended tag _ _ none_).1
  | ecc a => exact (loadFails_ended tag _ _ none_).1

/-- Settles O41: what a load leaves and tells at each of its ends, the region it takes while it reads, and its checks in
their order. -/
theorem loadPlacesTheActOrNothing : Obligations.LoadPlacesTheActOrNothing := by
  refine ⟨fun m act tag s₀ s hs flight => ?_, fun m act tag d s₀ flight free entry wellFormed low high begun =>
    atMoment_region flight free entry (loadable_iff.2 ⟨wellFormed, low, high⟩) begun, fun cells act => ?_⟩
  · obtain ⟨t, run, waiting, ended⟩ := during_loadCompleted hs flight
    refine ⟨t, run, ?_⟩
    by_cases free : readsFree s
    · have keeps : LoadKeeps s t := by
        rw [ended free]
        exact loadEnded_keeps tag act _ hs.halves
      have checked : (∀ u ∈ s.store.readsLeft, s.store.unitFails u = false) →
          t = loadEnded tag act (loadEnd s.store.cells act) s := by
        intro sound
        rw [ended free, firstFailure_of_sound (List.find?_eq_none.2 fun u hu => by rw [sound u hu]; decide)]
        rfl
      refine ⟨keeps.outside, fun a => by rw [keeps.cells], keeps.protection, keeps.requests,
        fun waits => absurd free waits, fun _ => ⟨keeps.flight, fun u failure => ?_, fun sound fails => ?_,
          fun sound fails => ?_, fun sound fails => ?_, fun i sound fails => ?_,
          fun region langs beat cues sound passes => ?_⟩⟩
      · exact LoadFailed.of_ended hs.halves (ended free) .ecc (by rw [firstFailure_of_failing failure]; rfl)
      · exact LoadFailed.of_ended hs.halves (checked sound) .noAct (by rw [fails]; rfl)
      · exact LoadFailed.of_ended hs.halves (checked sound) .check (by rw [fails]; rfl)
      · exact LoadFailed.of_ended hs.halves (checked sound) .corrupt (by rw [fails]; rfl)
      · exact LoadFailed.of_ended hs.halves (checked sound) .corrupt (by rw [fails]; rfl)
      · have placed : LoadPlaced tag act region langs beat cues s t := by
          rw [checked sound, passes]
          exact (loadSucceeds_ended tag act region langs beat cues hs.halves).2
        exact placed
    · obtain ⟨blocks, rest⟩ := (PortUOnly.refl s).sameRest
      rw [waiting free]
      obtain ⟨outside, -, -, -, -, -, requests⟩ := id blocks
      exact ⟨outside, fun _ => rfl, rfl, requests, fun _ => ⟨blocks, rest, rfl, rfl, rfl⟩,
        fun there => absurd there free⟩
  · refine ⟨loadEnd_of_absent, fun d entry => ⟨loadEnd_of_unloadable entry, fun wellFormed low high => ?_⟩⟩
    have loadable : d.loadable = true := loadable_iff.2 ⟨wellFormed, low, high⟩
    refine ⟨fun differs => (loadEnd_of_loadable entry loadable).trans (if_pos differs), fun same bad => ?_,
      fun h same header => ?_⟩
    · rw [loadEnd_of_same entry loadable same, imageEnd, show headerOf (d.image cells) d.cues = none from bad]
    · obtain ⟨failing, good⟩ := loadEnd_checks entry loadable same header
      refine ⟨failing, fun cues read => ?_⟩
      obtain ⟨ends, count, some_, few, ⟨slow, fast⟩, records⟩ := good cues read
      refine ⟨ends, count, some_, few, slow, fast, records.labels, records.marks, fun c hc => ?_⟩
      obtain ⟨⟨low, high⟩, suffix, mark, lead, slots, count, follow⟩ := records.each c hc
      exact ⟨low, high, suffix, mark, lead, slots, count, follow⟩

end Sys2Proof.Proofs
end

section
/-! RESTART (R132, R141, R160): what its answer changes, and the power-up values it takes effect with. -/

namespace Sys2Proof.Machine

/-! ### What port U's choice makes of a RESTART under way (R160) -/

/-- From s to t a RESTART neither came under way nor ended. -/
def KeepsRestarting (s t : State) : Prop := t.management.restart = .none ↔ s.management.restart = .none

theorem KeepsRestarting.trans {s t u : State} (h : KeepsRestarting s t) (k : KeepsRestarting t u) :
    KeepsRestarting s u := Iff.trans k h

/-- Choosing the response of a RESTART moves it on, and no choice of port U ends it. -/
theorem chooseU_keepsRestarting (s : State) : KeepsRestarting s (chooseU s) := by
  unfold chooseU
  split
  · exact Iff.rfl
  · split
    · unfold sendResponse
      dsimp only
      split
      · next waiting =>
        exact iff_of_false (by decide : RestartPhase.sending ≠ .none) (by rw [waiting]; decide)
      · exact Iff.rfl
    · split <;> exact Iff.rfl

theorem notify_keepsRestarting (n : Notice) (s : State) : KeepsRestarting s (notify n s) := by
  refine KeepsRestarting.trans ?_ (chooseU_keepsRestarting _)
  unfold admitNotice
  dsimp only
  split
  · split <;> exact Iff.rfl
  · exact Iff.rfl

theorem placeResponse_keepsRestarting (r : Response) (s : State) : KeepsRestarting s (placeResponse r s) :=
  chooseU_keepsRestarting (s.withLink { s.link with response := some r })

theorem respond_keepsRestarting (g : Handling) (result : Result) (data : List Byte) (s : State) :
    KeepsRestarting s (respond g result data s) := by
  have offered : KeepsRestarting s (offerHalves s) :=
    foldl_keeps KeepsRestarting (fun _ => Iff.rfl) (fun _ _ _ => .trans) _ (fun s n => notify_keepsRestarting n s)
      s.management.halves (s.withManagement { s.management with halves := [] })
  exact offered.trans (placeResponse_keepsRestarting _
    ((offerHalves s).withManagement { (offerHalves s).management with handling := none }))

/-! ### RESTART's answer (R132, R141) -/

/-- The state in which RESTART is answered: reads ended, operations that are not carried abandoned, nothing loading. -/
def restarting (s : State) : State :=
  (((s.withStore { s.store with
    queue := [], suspended := false, flight := s.store.flight.filter (fun f => f.op.carried), reads := 0 }).withStaging
    { s.staging with reading := none }).withControl { s.control with loading := false }).withManagement
    { s.management with restart := .waiting }

theorem doRestart_accepts {confirm : Byte} {s : State} (confirmed : confirm = 0x80) :
    doRestart confirm s = .answer (restarting s) .ok [] := by
  rw [confirmed]
  rfl

theorem doRestart_refuses {confirm : Byte} {s : State} (unconfirmed : confirm ≠ 0x80) :
    doRestart confirm s = .answer s .confirm [] := if_pos unconfirmed

/-- Once answered, a RESTART leaves the handling it found free free again. -/
theorem restarting_released {h : Head} {s : State} (free : s.management.handling = none) :
    (restarting (inHand h .restart s)).withManagement
      { (restarting (inHand h .restart s)).management with handling := none } = restarting s := by
  have same : ({ s.management with handling := none, restart := .waiting } : Management) =
      { s.management with restart := .waiting } := by rw [← free]
  have whole : (restarting (inHand h .restart s)).withManagement
      { (restarting (inHand h .restart s)).management with handling := none } =
      (restarting s).withManagement { s.management with handling := none, restart := .waiting } := rfl
  rw [whole, same]
  rfl

/-! ### The DARK captions on an idle port D (R96, R141) -/

/-- Port D has nothing to send but captions, and has dropped none. -/
structure CaptionsWait (s : State) : Prop where
  downFifo : s.link.downFifo = []
  tool : s.link.tool = none
  coalesced : s.link.coalesced = 0

/-- A source of port D that holds captions only serves one, which empties its slot. -/
theorem serveD_captionsWait {source : SourceD} {s t : State} (h : CaptionsWait s) (served : serveD source s = some t) :
    CaptionsWait t ∧ ∀ n : Fin 8, s.link.slots[n] = none → t.link.slots[n] = none := by
  cases source with
  | captions =>
    obtain ⟨⟨k, c⟩, -, rfl⟩ := Option.map_eq_some_iff.1 served
    refine ⟨⟨h.downFifo, h.tool, h.coalesced⟩, fun n empty => ?_⟩
    rw [show (sendCaption k c s).link.slots = s.link.slots.set k none from rfl, Fin.getElem_fin, Vector.getElem_set]
    split
    · rfl
    · exact empty
  | tools =>
    rw [serveD, h.tool] at served
    cases served
  | downFifo =>
    rw [serveD, h.downFifo] at served
    cases served

theorem chooseD_captionsWait {s : State} (h : CaptionsWait s) :
    CaptionsWait (chooseD s) ∧ ∀ n : Fin 8, s.link.slots[n] = none → (chooseD s).link.slots[n] = none := by
  unfold chooseD
  split
  · exact ⟨h, fun _ => id⟩
  · cases found : (circularFrom s.link.dNext).findSome? (fun source => serveD source s) with
    | none => exact ⟨h, fun _ => id⟩
    | some t =>
      obtain ⟨source, -, served⟩ := List.exists_of_findSome?_eq_some found
      exact serveD_captionsWait h served

/-- A caption put into an empty slot drops none and fills no other slot. -/
theorem putCaption_captionsWait {c : Caption} {s : State} (h : CaptionsWait s)
    (empty : s.link.slots[c.channel] = none) :
    CaptionsWait (putCaption c s) ∧
      ∀ n : Fin 8, n ≠ c.channel → s.link.slots[n] = none → (putCaption c s).link.slots[n] = none := by
  unfold putCaption
  dsimp only
  rw [empty]
  obtain ⟨waits, slots⟩ := chooseD_captionsWait (s := s.withLink { s.link with
    slots := s.link.slots.set c.channel (some c), coalesced := s.link.coalesced }) ⟨h.downFifo, h.tool, h.coalesced⟩
  refine ⟨waits, fun n other free => slots n ?_⟩
  have apart : c.channel.val ≠ n.val := fun e => other (Fin.ext e.symm)
  simpa [Vector.getElem_set, apart] using free

/-- A channel's DARK caption, where its slot is empty: port D keeps to captions, other slots stay empty, and an enabled
channel has number 1. -/
theorem darkCaption_captionsWait {n : Fin 8} {s : State} (h : CaptionsWait s) (empty : s.link.slots[n] = none) :
    CaptionsWait (darkCaption n s) ∧
      (∀ k : Fin 8, k ≠ n → s.link.slots[k] = none → (darkCaption n s).link.slots[k] = none) ∧
      (darkCaption n s).channels =
        if s.config.channels[n].enabled then s.channels.set n { s.channels[n] with number := 1 } else s.channels := by
  unfold darkCaption
  dsimp only
  split
  · obtain ⟨waits, slots⟩ := putCaption_captionsWait
      (c := captionOf s.config.channels[n].address n 1 s.config.channels[n].lines .dark)
      (s := s.withChannel n { s.channels[n] with number := 1 }) ⟨h.downFifo, h.tool, h.coalesced⟩ empty
    exact ⟨waits, slots, (putCaption_only _ _).channels⟩
  · exact ⟨h, fun _ _ => id, rfl⟩

/-- DARK captions in turn, each in an empty slot: port D keeps to captions, and each listed enabled channel has number 1
where every other is as before. -/
theorem darkEach_captionsWait {l : List (Fin 8)} (nodup : l.Nodup) {s : State} (h : CaptionsWait s)
    (empty : ∀ k ∈ l, s.link.slots[k] = none) :
    let t := l.foldl (fun s k => darkCaption k s) s
    CaptionsWait t ∧ ∀ n : Fin 8, t.channels[n] =
      if n ∈ l ∧ s.config.channels[n].enabled then { s.channels[n] with number := 1 } else s.channels[n] := by
  induction l generalizing s with
  | nil => exact ⟨h, fun _ => rfl⟩
  | cons k rest ih =>
    obtain ⟨fresh, later⟩ := List.nodup_cons.1 nodup
    obtain ⟨waits, slots, channels⟩ := darkCaption_captionsWait h (empty k List.mem_cons_self)
    obtain ⟨-, -, -, config, -, -⟩ := (darkCaption_only k s).outside
    obtain ⟨waited, each⟩ := ih later waits fun j hj =>
      slots j (fun same => fresh (same ▸ hj)) (empty j (List.mem_cons_of_mem _ hj))
    refine ⟨waited, fun n => ?_⟩
    rw [List.foldl_cons, each n, config, channels]
    by_cases same : n = k
    · subst same
      cases s.config.channels[n].enabled <;> simp [fresh]
    · have apart : k.val ≠ n.val := fun e => same (Fin.ext e.symm)
      cases s.config.channels[k].enabled <;> simp [same, apart]

/-! ### RESTART's effect (R141, R160) -/

/-- A DARK caption leaves counters, management block and port U. -/
theorem darkCaption_keeps (n : Fin 8) (s : State) :
    let t := darkCaption n s
    t.counters = s.counters ∧ t.management = s.management ∧ t.link.upFifo = s.link.upFifo ∧
      t.link.response = s.link.response := by
  unfold darkCaption
  dsimp only
  split
  · have put := putCaption_only (captionOf s.config.channels[n].address n 1 s.config.channels[n].lines .dark)
      (s.withChannel n { s.channels[n] with number := 1 })
    obtain ⟨upFifo, response, -⟩ := put.portU
    exact ⟨put.counters, put.management, upFifo, response⟩
  · exact ⟨rfl, rfl, rfl, rfl⟩

/-- Port U has nothing to send but notices, and no RESTART is under way. -/
structure NoticesWait (s : State) : Prop where
  upFifo : s.link.upFifo = []
  response : s.link.response = none
  restart : s.management.restart = .none

/-- With no response and no frame to pass on, port U sends at most the first notice. -/
theorem chooseU_of_noticesWait {s : State} (h : NoticesWait s) :
    chooseU s = s ∨ ∃ q rest, chooseU s = sendNotice q rest s := by
  unfold chooseU
  rw [h.response, h.upFifo]
  generalize s.link.uNext = next
  generalize s.management.notices = queue
  split
  · exact .inl rfl
  · cases queue with
    | nil => cases next <;> exact .inl rfl
    | cons q rest => cases next <;> exact .inr ⟨q, rest, rfl⟩

theorem chooseU_noticesWait {s : State} (h : NoticesWait s) : NoticesWait (chooseU s) := by
  rcases chooseU_of_noticesWait h with kept | ⟨q, rest, sent⟩
  · rw [kept]
    exact h
  · rw [sent]
    exact ⟨h.upFifo, h.response, h.restart⟩

theorem notify_noticesWait {n : Notice} {s : State} (h : NoticesWait s) : NoticesWait (notify n s) := by
  refine chooseU_noticesWait ?_
  unfold admitNotice
  dsimp only
  split
  · split <;> exact ⟨h.upFifo, h.response, h.restart⟩
  · exact h

/-- All channels told DARK after the reset. -/
def darkened (s : State) : State := forChannels darkCaption (restarted s)

theorem darkened_only (s : State) : CaptionsOnly (restarted s) (darkened s) :=
  forChannels_keeps CaptionsOnly .refl (fun _ _ _ => .trans) _ darkCaption_only (restarted s)

theorem darkened_counters (s : State) : (darkened s).counters = Vector.replicate 14 0 :=
  forChannels_keeps (fun s t => t.counters = s.counters) (fun _ => rfl) (fun _ _ _ h k => k.trans h) _
    (fun n s => (darkCaption_keeps n s).1) (restarted s)

theorem darkened_noticesWait (s : State) : NoticesWait (darkened s) := by
  refine forChannels_keeps (fun s t => NoticesWait s → NoticesWait t) (fun _ => id) (fun _ _ _ h k w => k (h w)) _ ?_
    (restarted s) ⟨rfl, rfl, rfl⟩
  rintro n u ⟨upFifo, response, restart⟩
  obtain ⟨-, management, sameFifo, sameResponse⟩ := darkCaption_keeps n u
  exact ⟨sameFifo.trans upFifo, sameResponse.trans response, by rw [management]; exact restart⟩

theorem darkened_channels (s : State) : CaptionsWait (darkened s) ∧ ∀ n : Fin 8,
    (darkened s).channels[n] =
      { Channel.initial with number := if s.config.channels[n].enabled then 1 else 0 } := by
  have slots : ∀ k : Fin 8, (restarted s).link.slots[k] = none := fun k => by
    show (Vector.replicate 8 (none : Option Caption))[k] = none
    simp
  have initial : ∀ k : Fin 8, (restarted s).channels[k] = Channel.initial := fun k => by
    show (Vector.replicate 8 Channel.initial)[k] = _
    simp
  obtain ⟨waits, channels⟩ := darkEach_captionsWait (l := allChannels) (by decide) (s := restarted s) ⟨rfl, rfl, rfl⟩
    fun k _ => slots k
  refine ⟨waits, fun n => (channels n).trans ?_⟩
  rw [initial, show (restarted s).config = s.config from rfl]
  cases s.config.channels[n].enabled with
  | false =>
    rw [if_neg (by simp)]
    rfl
  | true =>
    rw [if_pos ⟨mem_allChannels n, rfl⟩]
    rfl

end Sys2Proof.Machine

namespace Sys2Proof.Proofs

open Sys2Proof.Machine

/-- RESTART with its confirm byte: O48's first clause. -/
theorem restart_answered {m : Moment} {h : Head} {s₀ s : State} (hs : Ready m s₀ s) (confirmed : h.confirm = 0x80) :
    ∃ t, exec (.restart m h) s₀ = .next t ∧ Answered t (responseTo h .restart .ok []) ∧
      t.management.restart ≠ .none ∧ PortUOnly (restarting s) t ∧ sameNotices s t := by
  have reply : replyOf h .restart (inHand h .restart s) = .answer (restarting (inHand h .restart s)) .ok [] :=
    doRestart_accepts confirmed
  obtain ⟨run, answered⟩ := request_answered h .restart _ _ _ hs (payload_fits_of_le (by decide) _ _) reply
  have halves : (restarting (inHand h .restart s)).management.halves = [] := hs.halves
  refine ⟨_, run, answered, ?_⟩
  rw [respond_plain _ _ _ _ halves, restarting_released hs.handling]
  have waiting : (restarting s).management.restart ≠ .none := nofun
  exact ⟨fun ended => waiting ((placeResponse_keepsRestarting _ (restarting s)).1 ended), placeResponse_only _ _,
    placeResponse_notices _ (restarting s)⟩

/-- RESTART without its confirm byte: O48's second clause. -/
theorem restart_refused {m : Moment} {h : Head} {s₀ s : State} (hs : Ready m s₀ s) (unconfirmed : h.confirm ≠ 0x80) :
    ∃ t, exec (.restart m h) s₀ = .next t ∧ AnsweredOnly s t (responseTo h .restart .confirm []) ∧
      t.management.restart = .none := by
  have fits := payload_fits_of_le (r := .restart) (by decide) h.tag h.confirm
  have reply : replyOf h .restart (inHand h .restart s) = .answer (inHand h .restart s) .confirm [] :=
    doRestart_refuses unconfirmed
  obtain ⟨run, -⟩ := request_answered h .restart _ _ _ hs fits reply
  obtain ⟨t, same, only⟩ := request_answeredOnly h .restart _ _ hs fits reply
  obtain rfl := Host.Outcome.next.inj (run.symm.trans same)
  exact ⟨_, run, only, (respond_keepsRestarting _ _ _ (inHand h .restart s)).2 hs.restart⟩

/-- RESTART taking effect: O48's third clause, up to its SHOW_STATE. -/
theorem restartEffect_of_sent {s : State} (sent : s.management.restart = .sent) (idle : s.store.flight = none) :
    PortUOnly (darkened s) (restartEffect s) ∧ NoticesWait (restartEffect s) := by
  have run : restartEffect s = if s.control.show_ = .dark then darkened s
      else showNotice s.control.show_ .restart none (darkened s) := if_pos ⟨sent, idle⟩
  rw [run]
  split
  · exact ⟨.refl _, darkened_noticesWait s⟩
  · exact ⟨showNotice_only _ _ _ _, notify_noticesWait (darkened_noticesWait s)⟩

/-- Settles O48: the answer over the state that RESTART leaves the store and the show in, and the power-up values under
the DARK captions and SHOW_STATE with which it takes effect. -/
theorem restartIsAnsweredThenTakesEffect : Obligations.RestartIsAnsweredThenTakesEffect := by
  refine ⟨fun m h s₀ s hs => ⟨fun confirmed => ?_, restart_refused hs⟩, fun s powered sent idle => ?_⟩
  · obtain ⟨t, run, answered, began, only, notices⟩ := restart_answered hs confirmed
    have store := only.stores
    have carried : t.store.flight = s.store.flight.filter (fun f => f.op.carried) := congrArg (·.flight) store
    refine ⟨t, run, answered, began, congrArg (·.queue) store, congrArg (·.suspended) store, fun f flight => ?_,
      fun free => ?_, congrArg (·.protection) store, fun a => congrArg (·.cells.get? a) store, only.control,
      only.outside, only.score, only.firing, ⟨only.channels, only.placements⟩, only.portD, only.requests, only.tool,
      only.counters, notices⟩
    · rw [carried, flight, Option.filter_some]
    · rw [carried, free, Option.filter_none]
  · obtain ⟨only, waits⟩ := restartEffect_of_sent sent idle
    obtain ⟨captions, channels⟩ := darkened_channels s
    have dark := darkened_only s
    have whole := dark.trans only.toCaptionsOnly
    obtain ⟨-, -, -, config, clock, address⟩ := whole.outside
    obtain ⟨tracker, table⟩ := whole.score
    obtain ⟨fifo, handling, valid⟩ := whole.requests
    obtain ⟨downFifo, -, tool, -, -, -, -, coalesced, -⟩ := only.portD
    have store := whole.stores
    refine ⟨restartEffect s, congrArg Host.Outcome.next (if_pos powered), clock, whole.control, config, valid, fifo,
      handling, waits.restart, address, downFifo.trans captions.downFifo, waits.upFifo, tool.trans captions.tool,
      waits.response, coalesced.trans captions.coalesced, tracker, table, whole.staging, whole.firing, whole.placements,
      only.counters.trans (darkened_counters s), whole.tools (fun _ => nofun), congrArg (·.queue) store,
      congrArg (·.region) store, congrArg (·.lock) store, congrArg (·.trap) store, congrArg (·.protection) store,
      fun a => congrArg (·.cells.get? a) store, fun n => ?_⟩
    rw [only.channels]
    exact channels n

end Sys2Proof.Proofs
end

section
/-! Power-up (R142, R147): with no operation in flight an interruption leaves the store's nonvolatile contents alone. -/

namespace Sys2Proof.Machine

theorem cutCells_of_none {st : Store} (cut : Interrupt) (free : st.flight = none) : cutCells cut st = st.cells := by
  rw [cutCells, free]

theorem powerGained_cells {s : State} (straps : BitVec 4) (cut : Interrupt) (free : s.store.flight = none) :
    (powerGained straps cut s).store.cells = s.store.cells := cutCells_of_none cut free

theorem powerGained_protection {s : State} (straps : BitVec 4) (cut : Interrupt) (free : s.store.flight = none) :
    (powerGained straps cut s).store.protection = s.store.protection :=
  cutProtection_of_idle cut (updating_of_none free)

end Sys2Proof.Machine

namespace Sys2Proof.Proofs

open Sys2Proof.Machine

/-- Settles O5: every volatile block is the one of `State.poweredUp`; what is left of the store is what an interruption of
nothing leaves. -/
theorem powerUpResetsTheEngine : Obligations.PowerUpResetsTheEngine := by
  intro straps cut s
  refine ⟨powerGained straps cut s, rfl, rfl, rfl, rfl, rfl, rfl, rfl, rfl, rfl, rfl, rfl, rfl, rfl, rfl, rfl, rfl, rfl,
    rfl, rfl, rfl, rfl, fun free => ⟨fun a => ?_, powerGained_protection straps cut free⟩⟩
  rw [powerGained_cells straps cut free]

end Sys2Proof.Proofs
end

section
/-! State changes to the present show state (R145): each owner refuses with STATE, and a refusal changes nothing. -/

namespace Sys2Proof.Machine

/-- The data of STATE, from the show state (R164). -/
theorem showData_of_show {s : State} {x : ShowState} (present : s.control.show_ = x) : showData s = be 1 x.code :=
  congrArg (fun y : ShowState => be 1 y.code) present

/-- A request that its owner refuses with STATE is answered so, with the show state, and nothing else is done. -/
theorem request_refusedState {m : Moment} {s₀ s : State} {x : ShowState} (h : Head) (r : Request) (hs : Ready m s₀ s)
    (fits : (requestPayload r h.tag h.confirm).length ≤ Config.payloadMax) (present : s.control.show_ = x)
    (reply : replyOf h r (inHand h r s) = refuse (inHand h r s) .state) :
    ∃ t, during m s₀ (submit h r) = .next t ∧ AnsweredOnly s t (responseTo h r .state (be 1 x.code)) := by
  have data : showData (inHand h r s) = be 1 x.code := showData_of_show present
  exact request_answeredOnly h r .state _ hs fits (reply.trans (congrArg (Reply.answer _ .state) data))

section refusals
variable {s : State} {tag : Byte}

theorem doStart_refuses (force : Byte) (elsewhere : s.control.show_ ≠ .preset) :
    doStart tag force s = refuse s .state := if_pos elsewhere

theorem doHold_refuses (elsewhere : s.control.show_ ≠ .run) : doHold tag s = refuse s .state := if_pos elsewhere

theorem doResume_refuses (elsewhere : s.control.show_ ≠ .hold) : doResume tag s = refuse s .state := if_pos elsewhere

theorem doStop_refuses (notRun : s.control.show_ ≠ .run) (notHold : s.control.show_ ≠ .hold) :
    doStop tag s = refuse s .state := if_pos ⟨notRun, notHold⟩

theorem doUnload_refuses {confirm : Byte} (confirmed : confirm = 0xEA) (dark : s.control.show_ = .dark) :
    doUnload tag confirm s = refuse s .state := by
  have code : confirm = 255 - requestCode .unload := confirmed.trans (by decide)
  rw [doUnload, if_neg (not_not.2 code), if_pos dark]

theorem doLoadAct_refuses {act : Byte} (ok : actOk act = true) (playing : s.control.show_ ≠ .dark) :
    doLoadAct tag act s = refuse s .state := by
  rw [doLoadAct, if_neg (not_not.2 ok), if_pos playing]

end refusals

end Sys2Proof.Machine

namespace Sys2Proof.Proofs

open Sys2Proof.Machine

/-- Settles O59: outside the show state that a request is made from, its owner refuses it with STATE. -/
theorem requestsForThePresentStateAreRefused : Obligations.RequestsForThePresentStateAreRefused := by
  intro m h s₀ s hs
  have other {x y : ShowState} (present : s.control.show_ = x) (apart : x ≠ y) : s.control.show_ ≠ y := present ▸ apart
  have single {r : Request} {b : Byte} (one : requestParameters r = [b]) :
      (requestPayload r h.tag h.confirm).length ≤ Config.payloadMax :=
    payload_fits_of_le (by rw [one]; exact (by decide : 1 ≤ 237)) _ _
  have bare {r : Request} (empty : requestParameters r = []) := requestPayload_fits empty h.tag h.confirm
  refine ⟨fun run force => ?start, fun hold => ?hold, fun run => ?resume, fun preset => ?stop,
    fun dark confirmed => ?unload, fun playing act low high => ?loadAct⟩
  case start =>
    exact request_refusedState h (.start force) hs (single rfl) run (doStart_refuses force (other run nofun))
  case hold => exact request_refusedState h .hold hs (bare rfl) hold (doHold_refuses (other hold nofun))
  case resume => exact request_refusedState h .resume hs (bare rfl) run (doResume_refuses (other run nofun))
  case stop =>
    exact request_refusedState h .stop hs (bare rfl) preset (doStop_refuses (other preset nofun) (other preset nofun))
  case unload => exact request_refusedState h .unload hs (bare rfl) dark (doUnload_refuses confirmed dark)
  case loadAct =>
    exact request_refusedState h (.loadAct act) hs (single rfl) rfl (doLoadAct_refuses (actOk_of_le low high) playing)

end Sys2Proof.Proofs
end

section
/-! Frames on the link (R148, R182, R188): the bytes of a frame parse to it, and bytes that parse are those of their
frame. -/

namespace Sys2Proof.Machine

/-- The bytes of a frame, with payload and check set apart from the header (R182, R188). -/
theorem frame_bytes (f : Frame) : f.bytes = f.dest :: f.source :: f.kind :: f.seq :: BitVec.ofNat 8 f.payload.length ::
    (f.payload ++ be 2 (crc16 f.body).toNat) := rfl

/-- A payload that fits a frame has its length spelled by the length byte (R148). -/
theorem lengthByte_toNat {n : Nat} (short : n ≤ Config.payloadMax) : (BitVec.ofNat 8 n).toNat = n := by
  rw [BitVec.toNat_ofNat]
  exact Nat.mod_eq_of_lt (Nat.lt_of_le_of_lt short (by decide))

/-- The bytes of a frame pass every check of R148. -/
theorem parseFrame_bytes {f : Frame} (short : f.payload.length ≤ Config.payloadMax) : parseFrame f.bytes = some f := by
  rw [frame_bytes, parseFrame]
  rw [lengthByte_toNat short, List.take_left, List.drop_left, if_pos]
  exact ⟨short, by rw [List.length_append, be_length], rfl⟩

/-- Bytes that pass every check of R148 are those of the frame they make. -/
theorem bytes_of_parseFrame {bytes : List Byte} {f : Frame} (parsed : parseFrame bytes = some f) :
    bytes = f.bytes ∧ f.payload.length ≤ Config.payloadMax := by
  unfold parseFrame at parsed
  split at parsed
  · next dest source kind seq len rest =>
    dsimp only at parsed
    split at parsed
    · next checks =>
      obtain ⟨short, whole, check⟩ := checks
      obtain rfl := Option.some.inj parsed
      have taken : (rest.take len.toNat).length = len.toNat := by rw [List.length_take]; omega
      have spelled : BitVec.ofNat 8 (rest.take len.toNat).length = len := by rw [taken, BitVec.ofNat_toNat, BitVec.setWidth_eq]
      refine ⟨?_, taken.trans_le short⟩
      rw [frame_bytes]
      dsimp only
      rw [spelled, ← check, List.take_append_drop]
    · cases parsed
  · cases parsed

end Sys2Proof.Machine

namespace Sys2Proof.Proofs

open Sys2Proof.Machine

/-- Settles O7: parsing inverts the spelling of a frame, both ways. -/
theorem framesParseExactlyWhenGood : Obligations.FramesParseExactlyWhenGood := by
  intro bytes f
  constructor
  · exact bytes_of_parseFrame
  · rintro ⟨rfl, short⟩
    exact parseFrame_bytes short

end Sys2Proof.Proofs
end

section
/-! The frames of port D and port U at their arbiters (R153, R156, R157): which source is served, and with what frame. -/

namespace Sys2Proof.Machine

/-! ### The captions of port D (R156) -/

section captions
variable {l : Link} {n : Fin 8} {c : Caption}

/-- The held captions with their channels, in the order counting from the channel after the last served. -/
def heldCaptions (l : Link) : List (Fin 8 × Caption) :=
  (afterChannel l.dLast).filterMap fun n => (l.slots[n]).map fun c => (n, c)

theorem pickCaption_eq (l : Link) :
    pickCaption l = ((heldCaptions l).find? fun p => p.2.alert).or (heldCaptions l).head? := by
  unfold pickCaption
  dsimp only
  split
  · next p found => rw [heldCaptions, found]; rfl
  · next none_ => rw [heldCaptions, none_]; rfl

/-- A caption is held exactly when it stands in its channel's slot. -/
theorem mem_heldCaptions : (n, c) ∈ heldCaptions l ↔ l.slots[n] = some c := by
  have every : n ∈ afterChannel l.dLast := by
    generalize l.dLast = last
    revert n last
    decide
  simp [heldCaptions, List.mem_filterMap, every]

theorem pickCaption_none (empty : ∀ n : Fin 8, l.slots[n] = none) : pickCaption l = none := by
  have nothing : heldCaptions l = [] := by
    refine List.eq_nil_iff_forall_not_mem.2 fun ⟨n, c⟩ held => ?_
    rw [mem_heldCaptions, empty n] at held
    cases held
  rw [pickCaption_eq, nothing]
  rfl

/-- The caption picked is the first of those marked for an alert, or the first of all where none is (R156). -/
theorem pickCaption_cases {p : Fin 8 × Caption} (picked : pickCaption l = some p) :
    (heldCaptions l).find? (fun q => q.2.alert) = some p ∨
      ((∀ q ∈ heldCaptions l, q.2.alert = false) ∧ (heldCaptions l).find? (fun _ => true) = some p) := by
  rw [pickCaption_eq] at picked
  cases alerts : (heldCaptions l).find? fun q => q.2.alert with
  | some q =>
    rw [alerts] at picked
    exact .inl picked
  | none =>
    rw [alerts, Option.none_or] at picked
    refine .inr ⟨fun q held => Bool.eq_false_iff.2 (List.find?_eq_none.1 alerts q held), ?_⟩
    rw [← picked]
    cases heldCaptions l <;> rfl

theorem pickCaption_held {p : Fin 8 × Caption} (picked : pickCaption l = some p) : p ∈ heldCaptions l := by
  rcases pickCaption_cases picked with first | ⟨-, first⟩
  · exact List.mem_of_find?_eq_some first
  · exact List.mem_of_find?_eq_some first

/-- The caption picked is marked for an alert where any is (R156). -/
theorem pickCaption_alert (picked : pickCaption l = some (n, c))
    (alert : ∃ k : Fin 8, ∃ x, l.slots[k] = some x ∧ x.alert = true) : c.alert = true := by
  obtain ⟨k, x, slot, marked⟩ := alert
  rcases pickCaption_cases picked with first | ⟨unmarked, -⟩
  · exact List.find?_some (p := fun q : Fin 8 × Caption => q.2.alert) first
  · exact absurd marked (by rw [unmarked (k, x) (mem_heldCaptions.2 slot)]; decide)

/-- What is found in a list ordered by a relation comes first among all that fit. -/
theorem find?_first {α : Type} {R : α → α → Prop} {fits : α → Bool} {xs : List α} {p q : α} (ordered : xs.Pairwise R)
    (found : xs.find? fits = some p) (member : q ∈ xs) (fit : fits q = true) : q = p ∨ R p q := by
  obtain ⟨-, before, after, whole, unfit⟩ := List.find?_eq_some_iff_append.1 found
  subst whole
  rcases List.mem_append.1 member with early | late
  · exact absurd fit (by simpa using unfit q early)
  · refine (List.mem_cons.1 late).imp_right fun behind => ?_
    exact List.rel_of_pairwise_cons (List.pairwise_append.1 ordered).2.1 behind

theorem heldCaptions_ordered (l : Link) :
    (heldCaptions l).Pairwise fun p q => (p.1 - l.dLast - 1).val ≤ (q.1 - l.dLast - 1).val := by
  have order : (afterChannel l.dLast).Pairwise fun a b => (a - l.dLast - 1).val ≤ (b - l.dLast - 1).val := by
    generalize l.dLast = last
    revert last
    decide
  refine order.filterMap _ fun a b le p hp q hq => ?_
  obtain ⟨_, -, rfl⟩ := Option.map_eq_some_iff.1 hp
  obtain ⟨_, -, rfl⟩ := Option.map_eq_some_iff.1 hq
  exact le

/-- Of the captions with its mark, the one picked comes first in channel order after the last served (R156). -/
theorem pickCaption_first (picked : pickCaption l = some (n, c)) {k : Fin 8} {x : Caption} (slot : l.slots[k] = some x)
    (mark : x.alert = c.alert) : (n - l.dLast - 1).val ≤ (k - l.dLast - 1).val := by
  have member := mem_heldCaptions.2 slot
  have early : (k, x) = (n, c) ∨ (n - l.dLast - 1).val ≤ (k - l.dLast - 1).val := by
    rcases pickCaption_cases picked with first | ⟨-, first⟩
    · have marked : c.alert = true := List.find?_some (p := fun q : Fin 8 × Caption => q.2.alert) first
      exact find?_first (heldCaptions_ordered l) first member (mark.trans marked)
    · exact find?_first (heldCaptions_ordered l) first member rfl
  rcases early with same | before
  · rw [(Prod.mk.inj same).1]
  · exact before

end captions

/-! ### The turns of port D (R156) -/

section portD
variable {s : State}

/-- An idle port D serves the first source around the circle that holds a frame. -/
theorem chooseD_serves {source : SourceD} {before after : List SourceD} {t : State} (idle : s.link.sendingD = none)
    (order : circularFrom s.link.dNext = before ++ source :: after) (empty : ∀ other ∈ before, serveD other s = none)
    (served : serveD source s = some t) : chooseD s = t := by
  have found := List.findSome?_eq_some_iff.2 ⟨before, source, after, order, served, empty⟩
  rw [chooseD, if_neg (by rw [idle]; decide), found]
  rfl

theorem serveD_captions_empty (empty : ∀ n : Fin 8, s.link.slots[n] = none) : serveD .captions s = none := by
  rw [serveD, pickCaption_none empty]
  rfl

theorem serveD_tools_empty (empty : s.link.tool = none) : serveD .tools s = none := by
  rw [serveD, empty]
  rfl

theorem serveD_downFifo_empty (empty : s.link.downFifo = []) : serveD .downFifo s = none := by
  rw [serveD, empty]

theorem serveD_downFifo {f : Frame} {rest : List Frame} (waits : s.link.downFifo = f :: rest) :
    serveD .downFifo s = some (sendDown f rest s) := by
  rw [serveD, waits]

/-- Port D sends the caption picked, at the turn of the captions or when the turn comes to them. -/
theorem chooseD_captions {n : Fin 8} {c : Caption} (idle : s.link.sendingD = none)
    (turn : s.link.dNext = .captions ∨ (s.link.dNext = .downFifo ∧ s.link.downFifo = []) ∨
      (s.link.dNext = .tools ∧ s.link.tool = none ∧ s.link.downFifo = []))
    (picked : pickCaption s.link = some (n, c)) : chooseD s = sendCaption n c s := by
  have served : serveD .captions s = some (sendCaption n c s) := by rw [serveD, picked]; rfl
  rcases turn with next | ⟨next, empty⟩ | ⟨next, free, empty⟩
  · exact chooseD_serves (before := []) idle (by rw [next]; rfl) nofun served
  · exact chooseD_serves (before := [.downFifo]) idle (by rw [next]; rfl)
      (List.forall_mem_singleton.2 (serveD_downFifo_empty empty)) served
  · exact chooseD_serves (before := [.tools, .downFifo]) idle (by rw [next]; rfl)
      (List.forall_mem_cons.2 ⟨serveD_tools_empty free, List.forall_mem_singleton.2 (serveD_downFifo_empty empty)⟩) served

/-- Port D sends the frame in the tool slot, at the turn of the tools or when the turn comes to them. -/
theorem chooseD_tools {t : ToolFrame} (idle : s.link.sendingD = none)
    (turn : s.link.dNext = .tools ∨ ((∀ n : Fin 8, s.link.slots[n] = none) ∧
      (s.link.dNext = .captions ∨ (s.link.dNext = .downFifo ∧ s.link.downFifo = []))))
    (offered : s.link.tool = some t) : chooseD s = sendTool t s := by
  have served : serveD .tools s = some (sendTool t s) := by rw [serveD, offered]; rfl
  rcases turn with next | ⟨dark, next | ⟨next, empty⟩⟩
  · exact chooseD_serves (before := []) idle (by rw [next]; rfl) nofun served
  · exact chooseD_serves (before := [.captions]) idle (by rw [next]; rfl)
      (List.forall_mem_singleton.2 (serveD_captions_empty dark)) served
  · exact chooseD_serves (before := [.downFifo, .captions]) idle (by rw [next]; rfl)
      (List.forall_mem_cons.2 ⟨serveD_downFifo_empty empty, List.forall_mem_singleton.2 (serveD_captions_empty dark)⟩)
      served

/-- Port D sends the head of the down FIFO, at its turn or when the turn comes to it. -/
theorem chooseD_down {f : Frame} {rest : List Frame} (idle : s.link.sendingD = none)
    (turn : s.link.dNext = .downFifo ∨ (s.link.tool = none ∧
      (s.link.dNext = .tools ∨ (s.link.dNext = .captions ∧ ∀ n : Fin 8, s.link.slots[n] = none))))
    (waits : s.link.downFifo = f :: rest) : chooseD s = sendDown f rest s := by
  have served := serveD_downFifo waits
  rcases turn with next | ⟨free, next | ⟨next, dark⟩⟩
  · exact chooseD_serves (before := []) idle (by rw [next]; rfl) nofun served
  · exact chooseD_serves (before := [.tools]) idle (by rw [next]; rfl)
      (List.forall_mem_singleton.2 (serveD_tools_empty free)) served
  · exact chooseD_serves (before := [.captions, .tools]) idle (by rw [next]; rfl)
      (List.forall_mem_cons.2 ⟨serveD_captions_empty dark, List.forall_mem_singleton.2 (serveD_tools_empty free)⟩) served

/-- With nothing waiting port D stays idle. -/
theorem chooseD_nothing (dark : ∀ n : Fin 8, s.link.slots[n] = none) (free : s.link.tool = none)
    (empty : s.link.downFifo = []) : chooseD s = s := by
  have none_ : (circularFrom s.link.dNext).findSome? (fun source => serveD source s) = none := by
    refine List.findSome?_eq_none_iff.2 fun source _ => ?_
    cases source with
    | captions => exact serveD_captions_empty dark
    | tools => exact serveD_tools_empty free
    | downFifo => exact serveD_downFifo_empty empty
  rw [chooseD, none_]
  exact ite_self s

end portD

/-! ### The turns of port U (R157) -/

section portU
variable {s : State}

/-- A waiting response goes before all else. -/
theorem chooseU_response {r : Response} (idle : s.link.sendingU = none) (waits : s.link.response = some r) :
    chooseU s = sendResponse r s := by
  rw [chooseU, if_neg (by rw [idle]; decide), waits]

/-- Without a response port U sends the oldest notice, at the turn of the notices or where no frame is to pass on. -/
theorem chooseU_notice {q : QueuedNotice} {rest : List QueuedNotice} (idle : s.link.sendingU = none)
    (unanswered : s.link.response = none) (waits : s.management.notices = q :: rest)
    (turn : s.link.uNext = .notices ∨ s.link.upFifo = []) : chooseU s = sendNotice q rest s := by
  rw [chooseU, if_neg (by rw [idle]; decide), unanswered, waits]
  dsimp only
  rcases turn with next | empty
  · rw [next]
  · rw [empty]
    cases s.link.uNext <;> rfl

/-- Without a response port U passes on the head of the up FIFO, at its turn or where no notice waits. -/
theorem chooseU_up {f : Frame} {rest : List Frame} (idle : s.link.sendingU = none)
    (unanswered : s.link.response = none) (waits : s.link.upFifo = f :: rest)
    (turn : s.link.uNext = .upFifo ∨ s.management.notices = []) : chooseU s = sendUp f rest s := by
  rw [chooseU, if_neg (by rw [idle]; decide), unanswered, waits]
  dsimp only
  rcases turn with next | empty
  · rw [next]
  · rw [empty]
    cases s.link.uNext <;> rfl

end portU

end Sys2Proof.Machine
end

section
/-! Frames counted and frames passed on (R148, R149, R150, R152, R159, R170). -/

namespace Sys2Proof.Machine

/-! ### One counter moves (R170) -/

/-- Below 127 an increment changes the counter alone. -/
theorem count_below {name : CounterName} {s : State} (below : s.counters[name.index] ≠ 127) :
    count name s = s.withCounters (s.counters.set name.index (bumped s.counters[name.index])) := by
  rw [count]
  exact if_neg below

/-- With none held back no COUNTER_HALF notice is offered over replaced counters. -/
theorem offerHalves_withCounters {s : State} (none_ : s.management.halves = []) (c : Vector Byte 14) :
    offerHalves (s.withCounters c) = s.withCounters c := offerHalves_none _ none_

/-- With none held back no COUNTER_HALF notice is offered over a replaced link. -/
theorem offerHalves_withLink {s : State} (none_ : s.management.halves = []) (l : Link) :
    offerHalves (s.withLink l) = s.withLink l := offerHalves_none _ none_

/-- A step that does nothing but count changes nothing else, but for a COUNTER_HALF notice at 127. -/
theorem count_countedOnly (name : CounterName) {s : State} (none_ : s.management.halves = []) :
    countedOnly name s (offerHalves (count name s)) := by
  obtain ⟨blocks, control, tools⟩ := ((count_only name s).trans (offerHalves_only _)).sameBlocks
  refine ⟨blocks, control, tools, ?_, fun below => ?_⟩
  · rw [offerHalves_counters, count_counters]
  · rw [count_below below, offerHalves_withCounters none_]
    exact ⟨rfl, .refl s⟩

/-- A bad frame counts its port's check counter (R148). -/
theorem discardBad_countedOnly (port : Port) {s : State} (none_ : s.management.halves = []) :
    countedOnly (match port with | .u => .uCheck | .d => .dCheck) s (offerHalves (discardBad port s)) := by
  cases port with
  | u => exact count_countedOnly .uCheck none_
  | d => exact count_countedOnly .dCheck none_

/-! ### Dispatch by destination and kind (R149, R150) -/

section dispatch
variable {f : Frame} {s : State}

/-- A frame to the engine of a kind its port does not take is counted (R149, R150, R159). -/
theorem dispatch_foreign {port : Port} (fits : payloadFits f.payload = true) (own : f.dest = s.link.address)
    (foreign : portTakes port f.kind = false) : dispatch port f s = count .badKind s := by
  have short : ¬ Config.payloadMax < f.payload.length := Nat.not_lt.2 (of_decide_eq_true fits)
  cases port with
  | u =>
    obtain ⟨⟨noPos, noGo⟩, noReq⟩ : (f.kind ≠ kindPos ∧ f.kind ≠ kindGo) ∧ f.kind ≠ kindReq := by
      simpa [portTakes] using foreign
    rw [dispatch, dispatchU, if_neg short, if_pos own, if_neg (not_or.2 ⟨noPos, noGo⟩), if_neg noReq]
  | d =>
    obtain ⟨noAnswer, noTest⟩ : f.kind ≠ kindAnswer ∧ f.kind ≠ kindTest := by simpa [portTakes] using foreign
    rw [dispatch, dispatchD, if_neg short, if_pos own, if_neg noAnswer, if_neg noTest]

/-- A frame on port U that goes down, and no further, is forwarded (R149). -/
theorem dispatchU_forwards (fits : payloadFits f.payload = true) (down : goesDown f.dest f.kind s.link.address = true) :
    dispatchU f s = forwardDown f s := by
  have short : ¬ Config.payloadMax < f.payload.length := Nat.not_lt.2 (of_decide_eq_true fits)
  obtain ⟨elsewhere, kept⟩ : f.dest ≠ s.link.address ∧ ¬ (f.dest = 255 ∧ (f.kind = kindPos ∨ f.kind = kindGo)) := by
    simpa [goesDown, imp_iff_not_or] using down
  rw [dispatchU, if_neg short, if_neg elsewhere, if_neg kept]

/-- A frame on port D for another address is forwarded up (R150). -/
theorem dispatchD_forwards (fits : payloadFits f.payload = true) (elsewhere : f.dest ≠ s.link.address) :
    dispatchD f s = forwardUp f s := by
  have short : ¬ Config.payloadMax < f.payload.length := Nat.not_lt.2 (of_decide_eq_true fits)
  rw [dispatchD, if_neg short, if_neg elsewhere]

end dispatch

/-! ### Passing on (R152) -/

section forward
variable {f : Frame} {s : State}

theorem forwardDown_joins (room : s.link.downFifo.length < 8) :
    forwardDown f s = chooseD (s.withLink { s.link with downFifo := s.link.downFifo ++ [f] }) := if_pos room

theorem forwardDown_drops (full : 8 ≤ s.link.downFifo.length) : forwardDown f s = count .dPassDrop s :=
  if_neg (Nat.not_lt.2 full)

theorem forwardUp_joins (room : s.link.upFifo.length < 8) :
    forwardUp f s = chooseU (s.withLink { s.link with upFifo := s.link.upFifo ++ [f] }) := if_pos room

theorem forwardUp_drops (full : 8 ≤ s.link.upFifo.length) : forwardUp f s = count .uPassDrop s :=
  if_neg (Nat.not_lt.2 full)

theorem forwardDown_channels (f : Frame) (s : State) : (forwardDown f s).channels = s.channels := by
  rcases Nat.lt_or_ge s.link.downFifo.length 8 with room | full
  · rw [forwardDown_joins room, (chooseD_only _).channels]
    rfl
  · rw [forwardDown_drops full, (count_only _ s).channels]

/-- Behind a frame in transmission the frame waits at the tail. -/
theorem forwardDown_waits (room : s.link.downFifo.length < 8) (busy : s.link.sendingD.isSome = true) :
    forwardDown f s = s.withLink { s.link with downFifo := s.link.downFifo ++ [f] } := by
  rw [forwardDown_joins room]
  exact chooseD_busy _ busy

/-- On an idle port D with nothing waiting the frame is sent at once, unchanged. -/
theorem forwardDown_sends (idle : s.link.sendingD = none) (dark : ∀ n : Fin 8, s.link.slots[n] = none)
    (free : s.link.tool = none) (empty : s.link.downFifo = []) :
    forwardDown f s = s.withLink { s.link with sendingD := some ⟨f, none⟩, dNext := .captions } := by
  have turn : s.link.dNext = .downFifo ∨ (s.link.tool = none ∧
      (s.link.dNext = .tools ∨ (s.link.dNext = .captions ∧ ∀ n : Fin 8, s.link.slots[n] = none))) := by
    cases s.link.dNext with
    | captions => exact .inr ⟨free, .inr ⟨rfl, dark⟩⟩
    | tools => exact .inr ⟨free, .inl rfl⟩
    | downFifo => exact .inl rfl
  rw [forwardDown_joins (by rw [empty]; decide), empty,
    chooseD_down (s := s.withLink { s.link with downFifo := [] ++ [f] }) idle turn rfl, sendDown, ← empty]
  rfl

theorem forwardUp_waits (room : s.link.upFifo.length < 8) (busy : s.link.sendingU.isSome = true) :
    forwardUp f s = s.withLink { s.link with upFifo := s.link.upFifo ++ [f] } := by
  rw [forwardUp_joins room]
  exact chooseU_busy _ busy

/-- On an idle port U with nothing waiting the frame is sent at once, unchanged. -/
theorem forwardUp_sends (idle : s.link.sendingU = none) (unanswered : s.link.response = none)
    (quiet : s.management.notices = []) (empty : s.link.upFifo = []) :
    forwardUp f s = s.withLink { s.link with sendingU := some f, uNext := .notices } := by
  rw [forwardUp_joins (by rw [empty]; decide), empty,
    chooseU_up (s := s.withLink { s.link with upFifo := [] ++ [f] }) idle unanswered rfl (.inr quiet), sendUp, ← empty]
  rfl

end forward

end Sys2Proof.Machine

namespace Sys2Proof.Proofs

open Sys2Proof.Machine

/-- Settles O9: both frames come to one count, which `count_countedOnly` judges. -/
theorem badAndForeignFramesAreCounted : Obligations.BadAndForeignFramesAreCounted := by
  constructor
  · intro m port bytes s₀ s hs bad
    refine ⟨_, during_awake (receive port bytes) hs, ?_⟩
    rw [receive, bad]
    exact discardBad_countedOnly port hs.halves
  · intro m port dest source kind seq payload s₀ s hs own foreign fits
    refine ⟨_, during_awake (dispatch port ⟨dest, source, kind, seq, payload⟩) hs, ?_⟩
    rw [dispatch_foreign fits own foreign]
    exact count_countedOnly .badKind hs.halves

/-- Settles O10: a forwarded frame waits, is dropped or is sent, by the room in its FIFO and what its port has to do. -/
theorem forwardedFramesJoinTheirFifo : Obligations.ForwardedFramesJoinTheirFifo := by
  constructor
  · intro m dest source kind seq payload s₀ s hs down fits f
    have run : exec (.forwardDown m dest source kind seq payload) s₀ = .next (offerHalves (forwardDown f s)) := by
      rw [← dispatchU_forwards (f := f) fits down]
      exact during_awake _ hs
    have offered := offerHalves_only (forwardDown f s)
    have only := (forwardDown_only f s).trans offered.toCaptionsOnly
    refine ⟨_, run, only.outside, only.score, ⟨only.staging, only.firing⟩,
      ⟨offered.channels.trans (forwardDown_channels f s), only.placements⟩, only.stores, only.control,
      fun room busy => ?waits, fun full => ?drops, fun idle dark free empty => ?sends⟩
    case waits =>
      rw [forwardDown_waits room busy, offerHalves_withLink hs.halves]
      exact ⟨rfl, rfl, rfl, .refl s⟩
    case drops =>
      rw [forwardDown_drops full]
      exact count_countedOnly .dPassDrop hs.halves
    case sends =>
      rw [forwardDown_sends idle dark free empty, offerHalves_withLink hs.halves]
      exact ⟨rfl, rfl, rfl, .refl s⟩
  · intro m dest source kind seq payload s₀ s hs elsewhere fits f
    have run : exec (.forwardUp m dest source kind seq payload) s₀ = .next (offerHalves (forwardUp f s)) := by
      rw [← dispatchD_forwards (f := f) fits elsewhere]
      exact during_awake _ hs
    have only := (forwardUp_only f s).trans (offerHalves_only _)
    refine ⟨_, run, only.outside, only.score, ⟨only.staging, only.firing⟩, ⟨only.channels, only.placements⟩, only.stores,
      only.control, only.tool, fun room busy => ?waits, fun full => ?drops, fun idle unanswered quiet empty => ?sends⟩
    case waits =>
      rw [forwardUp_waits room busy, offerHalves_withLink hs.halves]
      exact ⟨rfl, rfl, .refl s⟩
    case drops =>
      rw [forwardUp_drops full]
      exact count_countedOnly .uPassDrop hs.halves
    case sends =>
      rw [forwardUp_sends idle unanswered quiet empty, offerHalves_withLink hs.halves]
      exact ⟨rfl, rfl, .refl s⟩

end Sys2Proof.Proofs
end

section
/-! REQ frames (R151, R162 to R164): taken at once, joined to the FIFO or dropped, and answered INVALID where the payload
does not decode. -/

namespace Sys2Proof.Machine

section requests
variable {m : Moment} {s₀ s : State} {source : Byte} {payload : List Byte}

/-! ### The request FIFO (R151, R162, R163) -/

/-- A REQ frame to the engine is a request to take. -/
theorem dispatchU_req_own {seq : Byte} (fits : payloadFits payload = true) :
    dispatchU ⟨s.link.address, source, kindReq, seq, payload⟩ s = takeRequest source payload s := by
  have short : ¬ Config.payloadMax < payload.length := Nat.not_lt.2 (of_decide_eq_true fits)
  have other : ¬ (kindReq = kindPos ∨ kindReq = kindGo) := by decide
  rw [dispatchU, if_neg short, if_pos rfl, if_neg other, if_pos rfl]

/-- A REQ frame to the engine as a command. -/
theorem execReq_awake {seq : Byte} (hs : Awake m s₀ s) (fits : payloadFits payload = true) :
    exec (.req m s.link.address source seq payload) s₀ = .next (offerHalves (takeRequest source payload s)) := by
  rw [← dispatchU_req_own (seq := seq) fits]
  exact during_awake _ hs

/-- With a request in handling none is taken from the FIFO (R163). -/
theorem serve_of_handling (busy : s.management.handling ≠ none) : serve s = s := by
  have free : managementFree s = false := by
    rw [managementFree, Option.isNone_eq_false_iff.2 (Option.isSome_iff_ne_none.2 busy)]
    rfl
  unfold serve
  cases s.management.fifo.length with
  | zero => rfl
  | succ k =>
    rw [serveLoop, free]
    split <;> rfl

theorem takeRequest_joins (busy : s.management.handling ≠ none) (room : s.management.fifo.length < 4) :
    takeRequest source payload s =
      s.withManagement { s.management with fifo := s.management.fifo ++ [⟨source, payload⟩] } := by
  have offered : offerRequest source payload s = _ := if_pos room
  rw [takeRequest, offered]
  exact serve_of_handling busy

theorem takeRequest_drops (busy : s.management.handling ≠ none) (full : 4 ≤ s.management.fifo.length) :
    takeRequest source payload s = count .reqDrop s := by
  have offered : offerRequest source payload s = count .reqDrop s := if_neg (Nat.not_lt.2 full)
  obtain ⟨-, handling, -⟩ := (count_only .reqDrop s).requests
  rw [takeRequest, offered]
  exact serve_of_handling (by rw [handling]; exact busy)

/-- A ready management block handles a request's payload at once. -/
theorem takeRequest_ready (hs : Ready m s₀ s) : takeRequest source payload s = handlePayload source payload s := by
  have joined : offerRequest source payload s =
      s.withManagement { s.management with fifo := [⟨source, payload⟩] } := by
    rw [offerRequest, hs.fifo]
    rfl
  have freed : (s.withManagement { s.management with fifo := [⟨source, payload⟩] }).withManagement
      { s.management with fifo := [] } = s := by
    rw [← hs.fifo]
    rfl
  have free : managementFree (s.withManagement { s.management with fifo := [⟨source, payload⟩] }) = true := hs.free
  rw [takeRequest, joined]
  exact (if_pos free).trans (congrArg (handlePayload source payload) freed)

/-! ### A payload that does not decode (R164) -/

theorem submitPayload_ready (hs : Ready m s₀ s) (fits : payloadFits payload = true) :
    submitPayload source payload s = handlePayload source payload s := by
  rw [submitPayload, if_neg (Nat.not_lt.2 (of_decide_eq_true fits)), if_pos ⟨hs.fifo, hs.free⟩]

/-- What the answer INVALID says: code and tag as received, 0 for each missing byte. -/
def invalidResponse (source : Byte) (payload : List Byte) : Response :=
  { dest := source, code := fieldByte payload 0, tag := fieldByte payload 1, result := .invalid, data := [] }

/-- The answer INVALID stands, and nothing else is done. -/
theorem handleInvalid_answeredOnly (hs : Ready m s₀ s) :
    AnsweredOnly s (handleInvalid source payload s) (invalidResponse source payload) := by
  let g : Handling := ⟨source, fieldByte payload 0, fieldByte payload 1⟩
  have only := (NoticesOnly.refl (takeInHand g s)).answered hs.handling .invalid []
  obtain ⟨-, -, -, counters⟩ := respond_beside g .invalid [] (takeInHand g s)
  obtain ⟨blocks, control, tools⟩ := only.sameBlocks
  exact ⟨respond_answered _ _ _ _, blocks, ⟨control, tools, counters⟩, respond_notices hs.halves⟩

end requests

end Sys2Proof.Machine

namespace Sys2Proof.Proofs

open Sys2Proof.Machine

/-- Settles O52: one lemma for what becomes of a request, and `handleInvalid_answeredOnly` for what does not decode. -/
theorem requestsAreTakenQueuedOrDropped : Obligations.RequestsAreTakenQueuedOrDropped := by
  constructor
  · intro m source seq payload s₀ s hs fits
    refine ⟨fun ready => ?taken, fun busy room => ?joins, fun busy full => ?drops⟩
    case taken => exact ⟨_, execReq_awake hs fits, by rw [takeRequest_ready ready]⟩
    case joins =>
      have joined : offerHalves (takeRequest source payload s) =
          s.withManagement { s.management with fifo := s.management.fifo ++ [⟨source, payload⟩] } := by
        rw [takeRequest_joins busy room]
        exact offerHalves_none _ hs.halves
      refine ⟨_, execReq_awake hs fits, ?_⟩
      rw [joined]
      exact ⟨rfl, rfl, ⟨rfl, rfl, rfl, rfl, rfl, rfl⟩, ⟨rfl, rfl⟩, ⟨rfl, rfl⟩, ⟨rfl, rfl⟩, rfl, ⟨rfl, rfl, rfl⟩⟩
    case drops =>
      refine ⟨_, execReq_awake hs fits, ?_⟩
      rw [takeRequest_drops busy full]
      exact count_countedOnly .reqDrop hs.halves
  · intro m source payload s₀ s hs fits undecodable
    have handled : submitPayload source payload s = handleInvalid source payload s := by
      rw [submitPayload_ready hs fits, handlePayload, undecodable]
    have none_ : (handleInvalid source payload s).management.halves = [] := respond_halves _ _ _ _
    refine ⟨_, during_awake (submitPayload source payload) hs.toAwake, ?_⟩
    rw [handled, offerHalves_none _ none_]
    exact handleInvalid_answeredOnly hs

end Sys2Proof.Proofs
end

section
/-! The end of a transmission (R152 to R157, R178): what the port's end makes of the tools and of a RESTART, and what the
frame sent next leaves of the link. -/

namespace Sys2Proof.Machine

/-! ### The tool told of its frame (R155, R178) -/

section told
variable {s : State} {x : Option ToolFrame}

/-- Only a running test is told of its frame. -/
theorem toolSent_other (other : ∀ n k len, x ≠ some (.test n k len true)) (s : State) : toolSent x s = s := by
  unfold toolSent
  split
  · next n k len => exact absurd rfl (other n k len)
  · rfl

theorem testFrameSent_withLink (l : Link) (s : State) :
    testFrameSent (s.withLink l) = (s.withLink l).withTools (testFrameSent s).tools := by
  unfold testFrameSent
  dsimp only [withLink_tools]
  split
  · split <;> rfl
  · rfl

/-- Telling the tool replaces the tools by what they would be whatever the link holds. -/
theorem toolSent_withLink (x : Option ToolFrame) (l : Link) (s : State) :
    toolSent x (s.withLink l) = (s.withLink l).withTools (toolSent x s).tools := by
  unfold toolSent
  split
  · exact testFrameSent_withLink l s
  · rfl

/-- Telling the tool changes which tool runs, and with what record, alone. -/
theorem toolSent_tools (x : Option ToolFrame) (s : State) :
    ∃ running, (toolSent x s).tools = { s.tools with running := running } := by
  unfold toolSent testFrameSent
  split
  · split
    · split <;> exact ⟨_, rfl⟩
    · exact ⟨_, rfl⟩
  · exact ⟨_, rfl⟩

end told

/-! ### Port D's frames (R152, R153, R178) -/

section portD
variable {m : Moment} {s₀ s : State} {x : Option ToolFrame} {f : Frame}

/-- Port D idle again, its tool told of the frame sent. -/
def freedD (x : Option ToolFrame) (s : State) : State :=
  (s.withLink { s.link with sendingD := none }).withTools (toolSent x s).tools

theorem dSent_of_sending (sending : s.link.sendingD = some ⟨f, x⟩) : dSent s = chooseD (freedD x s) := by
  rw [freedD, ← toolSent_withLink, dSent, sending]

theorem sendTool_probe (id : Byte) (live : Bool) (s : State) :
    sendTool (.probe id live) s = s.withLink { s.link with
      tool := s.link.toolWaiting, toolWaiting := none, seqD := s.link.seqD + 1, dNext := .downFifo,
      sendingD := some ⟨⟨255, s.link.address, 0x31, s.link.seqD, [id, 0]⟩, some (.probe id live)⟩ } := rfl

/-- A test's frame leaves for the channel's address, and may be counted by its test. -/
theorem sendTool_test (n : Fin 8) (k len : Nat) (live : Bool) (s : State) :
    sendTool (.test n k len live) s = (s.withLink { s.link with
      tool := s.link.toolWaiting, toolWaiting := none, seqD := s.link.seqD + 1, dNext := .downFifo,
      sendingD := some ⟨⟨s.config.channels[n].address, s.link.address, 0x33, s.link.seqD, be 2 k ++ testBytes k len⟩,
        some (.test n k len live)⟩ }).withTools (countSent (.test n k len live) s).tools := by
  unfold sendTool countSent
  dsimp only [withLink_tools]
  split <;> rfl

/-- A frame of an ended test is counted by none. -/
theorem countSent_ended (n : Fin 8) (k len : Nat) (s : State) : countSent (.test n k len false) s = s := rfl

/-- A frame of a running test is counted by it (R178). -/
theorem countSent_running {r : TestRecord} (n : Fin 8) (k len : Nat) (running : s.tools.running = .test r) :
    countSent (.test n k len true) s =
      s.withTools { s.tools with running := .test { r with sent := r.sent + 1 } } := by
  simp only [countSent, running]

/-- A frame sent that replaces link and tools leaves all else as before. -/
theorem during_sentD {l : Link} {k : Tools} (hs : Awake m s₀ s) (sent : dSent s = (s.withLink l).withTools k)
    (own : l.address = s.link.address) :
    ∃ t, during m s₀ dSent = .next t ∧ t.link = l ∧ t.tools = k ∧ (t.control = s.control ∧ t.counters = s.counters) ∧
      sameOutside s t ∧ sameScore s t ∧ sameCues s t ∧ sameScreens s t ∧ sameStore s t ∧ sameRequests s t := by
  refine ⟨_, during_plain dSent hs ?_, ?_⟩
  · rw [sent]
    exact hs.halves
  · rw [sent]
    exact ⟨rfl, rfl, ⟨rfl, rfl⟩, ⟨rfl, rfl, rfl, rfl, rfl, own⟩, ⟨rfl, rfl⟩, ⟨rfl, rfl⟩, ⟨rfl, rfl⟩, rfl, rfl, rfl, rfl⟩

/-- The tools after a frame that no test counts. -/
theorem restAfter_of_told {t : State} (tools : t.tools = (toolSent x s).tools)
    (rest : t.control = s.control ∧ t.counters = s.counters) : restAfter x s t :=
  ⟨rest.1, rest.2, tools, fun other => by rw [tools, toolSent_other other]⟩

/-- A frame sent that no test counts leaves all but the link as before, and the tools as their telling left them. -/
theorem during_sentD_told {l : Link} (hs : Awake m s₀ s) (sent : dSent s = (s.withLink l).withTools (toolSent x s).tools)
    (own : l.address = s.link.address) :
    ∃ t, during m s₀ dSent = .next t ∧ t.link = l ∧ sameOutside s t ∧ sameScore s t ∧ sameCues s t ∧ sameScreens s t ∧
      sameStore s t ∧ sameRequests s t ∧ restAfter x s t := by
  obtain ⟨t, run, link, tools, rest, outside, score, cues, screens, store, requests⟩ := during_sentD hs sent own
  exact ⟨t, run, link, outside, score, cues, screens, store, requests, restAfter_of_told tools rest⟩

end portD

/-! ### Port U's frames (R152, R153, R157) -/

section portU
variable {m : Moment} {s₀ s : State} {f : Frame}

/-- Port U idle again, a RESTART at the given phase. -/
def freedU (phase : RestartPhase) (s : State) : State :=
  (s.withLink { s.link with sendingU := none }).withManagement { s.management with restart := phase }

/-- Port U's frame sent: port U is freed, and a RESTART whose response that was may now take effect (R160). -/
theorem uSent_of_sending (sending : s.link.sendingU = some f) : ∃ phase, uSent s = serve (chooseU (freedU phase s)) := by
  rw [uSent, sending]
  dsimp only
  unfold restartSent
  split <;> exact ⟨_, rfl⟩

/-- A response leaves the slot with the engine's header; of the rest only the phase of a RESTART may change (R160). -/
theorem sendResponse_eq (r : Response) (s : State) : ∃ phase, sendResponse r s = (s.withLink { s.link with
      response := none, seqU := s.link.seqU + 1,
      sendingU := some ⟨r.dest, s.link.address, 0x21, s.link.seqU, r.payload⟩ }).withManagement
    { s.management with restart := phase } := by
  unfold sendResponse
  dsimp only
  split <;> exact ⟨_, rfl⟩

/-- Freed with a response waiting, port U sends it (R157). -/
theorem freedU_responds {r : Response} (waits : s.link.response = some r) (phase : RestartPhase) :
    ∃ after, chooseU (freedU phase s) = (s.withLink { s.link with
        response := none, seqU := s.link.seqU + 1,
        sendingU := some ⟨r.dest, s.link.address, 0x21, s.link.seqU, r.payload⟩ }).withManagement
      { s.management with restart := after } := by
  rw [chooseU_response (s := freedU phase s) rfl waits]
  exact sendResponse_eq r (freedU phase s)

/-- Freed with no response waiting, port U sends the oldest notice at its turn (R157). -/
theorem freedU_tells {q : QueuedNotice} {waiting : List QueuedNotice} (unanswered : s.link.response = none)
    (waits : s.management.notices = q :: waiting) (turn : s.link.uNext = .notices ∨ s.link.upFifo = [])
    (phase : RestartPhase) :
    ∃ after, chooseU (freedU phase s) = (s.withLink { s.link with
        seqU := s.link.seqU + 1, uNext := .upFifo,
        sendingU := some ⟨0, s.link.address, 0x22, s.link.seqU, q.payload⟩ }).withManagement
      { s.management with notices := waiting, restart := after } := by
  rw [chooseU_notice (s := freedU phase s) rfl unanswered waits turn]
  exact ⟨phase, rfl⟩

/-- Freed with no response waiting, port U passes on the head of its FIFO at its turn (R157). -/
theorem freedU_passes {g : Frame} {waiting : List Frame} (unanswered : s.link.response = none)
    (waits : s.link.upFifo = g :: waiting) (turn : s.link.uNext = .upFifo ∨ s.management.notices = [])
    (phase : RestartPhase) :
    ∃ after, chooseU (freedU phase s) = (s.withLink { s.link with
        upFifo := waiting, sendingU := some g, uNext := .notices }).withManagement
      { s.management with restart := after } := by
  rw [chooseU_up (s := freedU phase s) rfl unanswered waits turn]
  exact ⟨phase, rfl⟩

/-- A frame sent on port U that replaces its part of the link, notices and RESTART's phase leaves all else as before. -/
theorem during_sentU {l : Link} {notices : List QueuedNotice} (hs : Awake m s₀ s)
    (sending : s.link.sendingU = some f) (empty : s.management.fifo = [])
    (sent : ∀ phase, ∃ after, chooseU (freedU phase s) =
      (s.withLink l).withManagement { s.management with notices := notices, restart := after })
    (own : l.address = s.link.address) (portD : samePortD s (s.withLink l)) :
    ∃ t, during m s₀ uSent = .next t ∧ t.link = l ∧ t.management.notices = notices ∧
      t.management.discarded = s.management.discarded ∧ sameBlocks s t ∧ sameRest s t := by
  obtain ⟨phase, freed⟩ := uSent_of_sending sending
  obtain ⟨after, chosen⟩ := sent phase
  have whole : uSent s = (s.withLink l).withManagement { s.management with notices := notices, restart := after } := by
    rw [freed, chosen]
    exact serve_of_empty empty
  refine ⟨_, during_plain uSent hs ?_, ?_⟩
  · rw [whole]
    exact hs.halves
  · rw [whole]
    exact ⟨rfl, rfl, rfl, ⟨⟨rfl, rfl, rfl, rfl, rfl, own⟩, ⟨rfl, rfl⟩, ⟨rfl, rfl⟩, ⟨rfl, rfl⟩, rfl, portD, rfl, rfl, rfl⟩,
      rfl, rfl, rfl⟩

end portU

end Sys2Proof.Machine

namespace Sys2Proof.Proofs

open Sys2Proof.Machine

/-- Settles O53: the arbiters' turns by `chooseD_*` and `chooseU_*` on the freed port, the order of the captions by
`pickCaption_*`, and what else is as before by `during_sentD` and `during_sentU`. -/
theorem portsSendTheArbitersChoice : Obligations.PortsSendTheArbitersChoice := by
  refine ⟨?caption, ?nothing, fun l n c picked => ⟨mem_heldCaptions.1 (pickCaption_held picked), pickCaption_alert picked⟩,
    ?response, ?notice, fun l n c picked k x slot mark => pickCaption_first picked slot mark, ?tool, ?down, ?up⟩
  case caption =>
    intro m f x n c s₀ s hs sending turn picked
    refine during_sentD_told hs ?_ rfl
    rw [dSent_of_sending sending, chooseD_captions (s := freedD x s) rfl turn picked]
    rfl
  case nothing =>
    intro m f x s₀ s hs sending dark free empty
    refine during_sentD_told hs ?_ rfl
    rw [dSent_of_sending sending, chooseD_nothing (s := freedD x s) dark free empty]
    rfl
  case response =>
    intro m f r s₀ s hs sending waits empty
    have sent := freedU_responds waits
    obtain ⟨t, run, link, notices, discarded, ⟨outside, score, cues, screens, store, -, requests⟩, rest⟩ :=
      during_sentU hs sending empty sent rfl (.refl s)
    exact ⟨t, run, link, outside, score, cues, screens, store, requests, rest, notices, discarded⟩
  case notice =>
    intro m f q waiting s₀ s hs sending unanswered empty waits turn
    have sent := freedU_tells unanswered waits turn
    obtain ⟨t, run, link, notices, -, blocks, rest⟩ := during_sentU hs sending empty sent rfl (.refl s)
    exact ⟨t, run, notices, link, blocks, rest⟩
  case tool =>
    intro m f x s₀ s hs sending turn
    constructor
    · intro id live offered
      refine during_sentD_told hs ?_ rfl
      rw [dSent_of_sending sending, chooseD_tools (s := freedD x s) rfl turn offered, sendTool_probe]
      rfl
    · intro n k len live offered
      have sent := chooseD_tools (s := freedD x s) rfl turn offered
      rw [← dSent_of_sending sending, sendTool_test] at sent
      obtain ⟨t, run, link, tools, rest, beside⟩ := during_sentD hs sent rfl
      refine ⟨t, run, link, fun ended => ?_, fun r running told => ?_, beside⟩
      · subst ended
        exact restAfter_of_told tools rest
      · subst running
        obtain ⟨other, same⟩ := toolSent_tools x s
        rw [tools, countSent_running (s := freedD x s) n k len told]
        exact congrArg (fun k : Tools => { k with running := .test { r with sent := r.sent + 1 } }) same
  case down =>
    intro m f g x waiting s₀ s hs sending waits turn
    refine during_sentD_told hs ?_ rfl
    rw [dSent_of_sending sending, chooseD_down (s := freedD x s) rfl turn waits]
    rfl
  case up =>
    intro m f g waiting s₀ s hs sending unanswered empty waits turn
    have sent := freedU_passes unanswered waits turn
    obtain ⟨t, run, link, notices, discarded, blocks, rest⟩ := during_sentU hs sending empty sent rfl (.refl s)
    exact ⟨t, run, link, blocks, rest, notices, discarded⟩

end Sys2Proof.Proofs
end

section
/-! The chain census (R153, R173 to R177): its start and PROBE, the answers it lists, and how its window judges them. -/

namespace Sys2Proof.Machine

/-! ### The start (R153, R174) -/

section start
variable {tag : Byte} {s : State}

/-- The tools as a census begins: the next id, an empty list, the window armed. -/
def begunTools (tag : Byte) (s : State) : Tools :=
  ⟨.census tag (later s.clock (1000 * s.config.engine.censusWindow)), s.tools.id + 1, [], false, .none⟩

/-- The census begun and its PROBE offered. -/
def censusBegun (tag : Byte) (s : State) : State :=
  offerTool (.probe (s.tools.id + 1) true) (s.withTools (begunTools tag s))

theorem doCensus_accepts (show_ : s.control.show_ = .dark ∨ s.control.show_ = .preset)
    (idle : s.tools.running = .none) : doCensus tag s = .answer (censusBegun tag s) .accepted [] := by
  have eligible : ¬ (s.control.show_ ≠ .dark ∧ s.control.show_ ≠ .preset) := fun ⟨notDark, notPreset⟩ =>
    show_.elim notDark notPreset
  have free : ¬ toolRuns s = true := by simp [toolRuns, idle]
  rw [doCensus, if_neg eligible, if_neg free]
  rfl

/-- Behind a frame in transmission a frame offered waits in the tool slot (R155). -/
theorem offerTool_waits {t : ToolFrame} (free : s.link.tool = none) (busy : s.link.sendingD.isSome = true) :
    offerTool t s = s.withLink { s.link with tool := some t } := by
  rw [offerTool, free]
  exact chooseD_busy _ busy

/-- On an idle port D with nothing waiting a frame offered is sent at once (R156). -/
theorem offerTool_sends {t : ToolFrame} (free : s.link.tool = none) (idle : s.link.sendingD = none)
    (dark : ∀ n : Fin 8, s.link.slots[n] = none) (empty : s.link.downFifo = []) :
    offerTool t s = sendTool t (s.withLink { s.link with tool := some t }) := by
  have turn : s.link.dNext = .tools ∨ ((∀ n : Fin 8, s.link.slots[n] = none) ∧
      (s.link.dNext = .captions ∨ (s.link.dNext = .downFifo ∧ s.link.downFifo = []))) := by
    cases s.link.dNext with
    | captions => exact .inr ⟨dark, .inl rfl⟩
    | tools => exact .inl rfl
    | downFifo => exact .inr ⟨dark, .inr ⟨rfl, empty⟩⟩
  rw [offerTool, free]
  exact chooseD_tools idle turn rfl

/-- A census begins behind port D's width, with the tools of a census. -/
theorem censusBegun_only (tag : Byte) (s : State) : PortDOnly (s.withTools (begunTools tag s)) (censusBegun tag s) :=
  offerTool_only _ _

theorem censusBegun_tools (tag : Byte) (s : State) : (censusBegun tag s).tools = begunTools tag s :=
  (censusBegun_only tag s).tools nofun

/-- Behind a frame in transmission the PROBE waits in the tool slot (R174). -/
theorem censusBegun_waits (free : s.link.tool = none) (busy : s.link.sendingD.isSome = true) :
    (censusBegun tag s).link = { s.link with tool := some (.probe (s.tools.id + 1) true) } := by
  rw [censusBegun, offerTool_waits (s := s.withTools (begunTools tag s)) free busy]
  rfl

/-- On an idle port D with nothing waiting the PROBE is sent to the broadcast address (R153, R174). -/
theorem censusBegun_sends (free : s.link.tool = none) (idle : s.link.sendingD = none)
    (dark : ∀ n : Fin 8, s.link.slots[n] = none) (empty : s.link.downFifo = []) :
    (censusBegun tag s).link.sendingD =
      some ⟨⟨255, s.link.address, 0x31, s.link.seqD, [s.tools.id + 1, 0]⟩, some (.probe (s.tools.id + 1) true)⟩ := by
  rw [censusBegun, offerTool_sends (s := s.withTools (begunTools tag s)) free idle dark empty]
  rfl

end start

/-! ### Answers (R175, R186) -/

section answers
variable {source tag : Byte} {deadline : Time} {payload : List Byte} {s : State}

/-- An ANSWER changes the tools alone. -/
theorem takeAnswer_eq (source : Byte) (payload : List Byte) (s : State) :
    takeAnswer source payload s = s.withTools (takeAnswer source payload s).tools := by
  unfold takeAnswer
  dsimp only
  split
  · repeat' split
    all_goals rfl
  · rfl

/-- An ANSWER of another census is disregarded. -/
theorem takeAnswer_foreign (running : s.tools.running = .census tag deadline) (foreign : payload.getD 0 0 ≠ s.tools.id) :
    takeAnswer source payload s = s := by
  rw [takeAnswer, running]
  exact if_pos foreign

/-- What becomes of an ANSWER of the running census. -/
theorem takeAnswer_own (running : s.tools.running = .census tag deadline) (own : payload.getD 0 0 = s.tools.id) :
    takeAnswer source payload s =
      if s.tools.list.any (fun e => e.address = source) then s.withTools { s.tools with
        list := s.tools.list.map (fun e => if e.address = source then { e with conflict := true } else e) }
      else if Config.censusPlaces ≤ s.tools.list.length then s.withTools { s.tools with overflow := true }
      else s.withTools { s.tools with list := insertEntry ⟨source, payload.getD 1 0, false⟩ s.tools.list } := by
  unfold takeAnswer
  dsimp only
  split
  · exact if_neg (not_not.2 own)
  · next other => exact absurd running (other tag deadline)

theorem takeAnswer_conflicts (running : s.tools.running = .census tag deadline) (own : payload.getD 0 0 = s.tools.id)
    (listed : ∃ e ∈ s.tools.list, e.address = source) : takeAnswer source payload s = s.withTools { s.tools with
      list := s.tools.list.map (fun e => if e.address = source then { e with conflict := true } else e) } := by
  rw [takeAnswer_own running own, if_pos (by simpa using listed)]

theorem takeAnswer_overflows (running : s.tools.running = .census tag deadline) (own : payload.getD 0 0 = s.tools.id)
    (fresh : ∀ e ∈ s.tools.list, e.address ≠ source) (full : 32 ≤ s.tools.list.length) :
    takeAnswer source payload s = s.withTools { s.tools with overflow := true } := by
  rw [takeAnswer_own running own, if_neg (by simpa using fresh)]
  exact if_pos full

theorem takeAnswer_lists (running : s.tools.running = .census tag deadline) (own : payload.getD 0 0 = s.tools.id)
    (fresh : ∀ e ∈ s.tools.list, e.address ≠ source) (room : s.tools.list.length < 32) :
    takeAnswer source payload s =
      s.withTools { s.tools with list := insertEntry ⟨source, payload.getD 1 0, false⟩ s.tools.list } := by
  rw [takeAnswer_own running own, if_neg (by simpa using fresh)]
  exact if_neg (Nat.not_le.2 room)

/-- An ANSWER to the engine reaches the census. -/
theorem dispatchD_answer_own {seq : Byte} (fits : payloadFits payload = true) :
    dispatchD ⟨s.link.address, source, kindAnswer, seq, payload⟩ s = takeAnswer source payload s := by
  have short : ¬ Config.payloadMax < payload.length := Nat.not_lt.2 (of_decide_eq_true fits)
  rw [dispatchD, if_neg short, if_pos rfl, if_pos rfl]

/-- An ANSWER to the engine as a command leaves all but the tools as before. -/
theorem execAnswer_awake {m : Moment} {s₀ : State} {seq : Byte} (hs : Awake m s₀ s) (fits : payloadFits payload = true) :
    exec (.answer m s.link.address source seq payload) s₀ =
      .next (s.withTools (takeAnswer source payload s).tools) := by
  rw [← takeAnswer_eq, ← dispatchD_answer_own (seq := seq) fits]
  refine during_plain _ hs ?_
  rw [dispatchD_answer_own fits, takeAnswer_eq]
  exact hs.halves

end answers

/-! ### The window's end (R176) -/

section judged
variable {tag : Byte} {deadline : Time} {s : State}

theorem channelsWhere_ne_zero {p : Fin 8 → Bool} : channelsWhere p ≠ 0 ↔ ∃ n, p n = true := by
  constructor
  · intro some_
    by_contra never
    exact some_ (channelsWhere_none fun n => Bool.eq_false_iff.2 fun here => never ⟨n, here⟩)
  · rintro ⟨n, here⟩ none_
    have member := setHas_channelsWhere p n
    rw [none_, setHas_none, here] at member
    cases member

/-- The enabled channels whose address has no entry. -/
def unanswered (s : State) : ChannelSet := channelsWhere fun n => s.config.channels[n].enabled && !answered s n

/-- Whether the census fails: a channel is missing, or an entry is in conflict (R176). -/
def censusFails (s : State) : Bool := decide (unanswered s ≠ 0) || s.tools.list.any (·.conflict)

theorem censusFails_iff : censusFails s = true ↔
    (∃ n : Fin 8, s.config.channels[n].enabled = true ∧ answered s n = false) ∨
      ∃ e ∈ s.tools.list, e.conflict = true := by
  rw [censusFails, Bool.or_eq_true, decide_eq_true_eq, unanswered, channelsWhere_ne_zero, List.any_eq_true]
  simp only [Bool.and_eq_true, Bool.not_eq_true']

/-- The census result (R176). -/
def censusVerdict (s : State) : CensusResult := if censusFails s then .fail else .pass

theorem censusVerdict_fail_iff : censusVerdict s = .fail ↔ censusFails s = true := by
  unfold censusVerdict
  split
  · next fails => exact iff_of_true rfl fails
  · next passes => exact iff_of_false nofun passes

/-- The tools once the window has ended. -/
def judgedTools (s : State) : Tools := { s.tools with running := .none, result := censusVerdict s }

/-- The present flags marked and the census ended. -/
def judged (s : State) : State := leaveTool ((forChannels markPresent s).withTools (judgedTools s))

/-- The OP_DONE of a census (R176). -/
def censusNotice (tag : Byte) (s : State) : Notice :=
  .opDone .census tag (if censusFails s then .fail else .pass)
    ([s.tools.id] ++ be 1 s.tools.list.length ++ yes s.tools.overflow ++
      [channelsWhere fun n => s.config.channels[n].enabled && answered s n] ++ [unanswered s])

theorem marked_only (s : State) : CaptionsOnly s (forChannels markPresent s) :=
  forChannels_keeps CaptionsOnly .refl (fun _ _ _ => .trans) _ markPresent_only s

theorem marked_beside (s : State) :
    (forChannels markPresent s).counters = s.counters ∧ (forChannels markPresent s).tools = s.tools :=
  forChannels_keeps (fun s t => t.counters = s.counters ∧ t.tools = s.tools) (fun _ => ⟨rfl, rfl⟩)
    (fun _ _ _ h k => ⟨k.1.trans h.1, k.2.trans h.2⟩) _ (fun n s => by unfold markPresent; split <;> exact ⟨rfl, rfl⟩) s

/-- A channel's present flag once the window has ended. -/
def presentJudged (s : State) (n : Fin 8) : Present :=
  if s.config.channels[n].enabled then (if answered s n then .found else .missing) else s.channels[n].present

theorem markPresent_channel (n : Fin 8) (s : State) :
    (markPresent n s).channels[n] = { s.channels[n] with present := presentJudged s n } := by
  unfold markPresent presentJudged
  split
  · exact withChannel_self _ _ _
  · rfl

theorem markPresent_channelOnly (n : Fin 8) (s : State) : ChannelOnly n s (markPresent n s) := by
  unfold markPresent
  split
  · exact .channel s n _
  · exact .refl n s

/-- Each channel is marked by the census list as it stood (R176). -/
theorem marked_channel (running : s.tools.running = .census tag deadline) (n : Fin 8) :
    (forChannels markPresent s).channels[n] = { s.channels[n] with present := presentJudged s n } := by
  obtain ⟨u, titles, channel, marked⟩ := forChannels_channel markPresent_channelOnly n s
  obtain ⟨-, -, -, config, -, -⟩ := titles.outside
  have tools : u.tools = s.tools := titles.tools (by rw [running]; exact nofun)
  rw [marked, markPresent_channel, channel, presentJudged, presentJudged, answered, answered, config, tools, channel]

theorem censusExpired_of_due (running : s.tools.running = .census tag deadline) (passed : due deadline s.clock = true) :
    censusExpired s = notify (censusNotice tag s) (judged s) := by
  have tools := (marked_beside s).2
  unfold censusExpired
  rw [running]
  dsimp only
  rw [if_pos passed, tools]
  rfl

/-- The tools replaced on both sides of a caption's width. -/
theorem CaptionsOnly.withTools {s t : State} (h : CaptionsOnly s t) (k : Tools) :
    CaptionsOnly (s.withTools k) (t.withTools k) where
  outside := h.outside
  score := h.score
  placements := h.placements
  control := h.control
  store := h.store
  requests := h.requests
  tools := fun _ => rfl
  grows := h.grows
  firing := h.firing
  entries := h.entries
  staging := h.staging
  stores := h.stores

theorem judged_only (s : State) : CaptionsOnly (s.withTools (judgedTools s)) (judged s) :=
  ((marked_only s).withTools _).trans (leaveTool_only _).toCaptionsOnly

theorem judged_tools (s : State) : (judged s).tools = judgedTools s := (judged_only s).tools nofun

theorem leaveTool_withTools_counters (s : State) (k : Tools) : (leaveTool (s.withTools k)).counters = s.counters := rfl

theorem leaveTool_withTools_channels (s : State) (k : Tools) : (leaveTool (s.withTools k)).channels = s.channels := rfl

theorem judged_counters (s : State) : (judged s).counters = s.counters := by
  rw [judged, leaveTool_withTools_counters, (marked_beside s).1]

theorem judged_channel (running : s.tools.running = .census tag deadline) (n : Fin 8) :
    (judged s).channels[n] = { s.channels[n] with present := presentJudged s n } := by
  rw [judged, leaveTool_withTools_channels, marked_channel running]

theorem censusVerdict_ne_none (s : State) : censusVerdict s ≠ .none := by
  unfold censusVerdict
  split <;> exact nofun

/-- The expiry of a passed window as a command judges the census, and at most counts its notice beside that. -/
theorem execCensusWindowExpiry_judges {m : Moment} {s₀ : State} (hs : Awake m s₀ s)
    (running : s.tools.running = .census tag deadline) (passed : due deadline s.clock = true) :
    ∃ t, exec (.censusWindowExpiry m) s₀ = .next t ∧ NoticesOnly (judged s) t ∧ t.counters = (judged s).counters := by
  refine ⟨offerHalves (censusExpired s), during_awake _ hs, ?_⟩
  rw [censusExpired_of_due running passed]
  have told := notify_only (censusNotice tag s) (judged s)
  exact ⟨told.toNoticesOnly.trans (offerHalves_only _), (offerHalves_counters _).trans told.counters⟩

end judged

/-! ### READ_CENSUS (R177) -/

/-- Whether a census runs. -/
def censusRuns (t : Tools) : Bool :=
  match t.running with
  | .census .. => true
  | _ => false

/-- What READ_CENSUS answers: id, whether a census runs, result, overflow flag, list (R177). -/
def censusData (t : Tools) : List Byte :=
  [t.id] ++ yes (censusRuns t) ++ be 1 t.result.code ++ yes t.overflow ++ be 1 t.list.length ++
    (t.list.map fun e => [e.address, e.hop] ++ yes e.conflict).flatten

theorem doReadCensus_eq (s : State) : doReadCensus s = .answer s .ok (censusData s.tools) := by
  unfold doReadCensus censusData censusRuns
  rfl

/-- Yes or no as a byte is one of two bytes (R183). -/
theorem yes_eq (b : Bool) : yes b = if b then [1] else [0] := by cases b <;> rfl

end Sys2Proof.Machine

namespace Sys2Proof.Proofs

open Sys2Proof.Machine

/-- Settles O55: a census begun, answered, judged and read, each by the lemmas of its part. -/
theorem censusListsAnswersAndJudges : Obligations.CensusListsAnswersAndJudges := by
  refine ⟨?begins, ?answers, ?judges, ?reads⟩
  case begins =>
    intro m h s₀ s hs show_ idle
    let s₁ := inHand h .census s
    have begun := censusBegun_only h.tag s₁
    obtain ⟨t, run, answered, only, notices⟩ := request_answeredQuietly h .census _ _ _ hs (requestPayload_fits rfl _ _)
      (doCensus_accepts (s := s₁) show_ idle) begun.management
    obtain ⟨-, -, tool, -, -, -, -, -, sending⟩ := only.portD
    refine ⟨t, run, answered, only.tool.trans (censusBegun_tools h.tag s₁), begun.outside.trans only.outside,
      ⟨only.score.1.trans begun.score.1, only.score.2.trans begun.score.2⟩,
      ⟨only.staging.trans begun.staging, only.firing.trans begun.firing⟩,
      ⟨only.channels.trans begun.channels, only.placements.trans begun.placements⟩, only.stores.trans begun.stores,
      only.requests, only.control.trans begun.control, only.counters.trans begun.counters, notices,
      fun free busy => ?_, fun free still dark empty => ?_⟩
    · have waits := censusBegun_waits (tag := h.tag) (s := s₁) free busy
      exact ⟨tool.trans (congrArg (·.tool) waits), sending.trans (congrArg (·.sendingD) waits)⟩
    · exact sending.trans (censusBegun_sends (s := s₁) free still dark empty)
  case answers =>
    intro m source seq tag deadline payload s₀ s hs fits running id hop
    refine ⟨_, execAnswer_awake hs fits, (PortUOnly.refl s).sameRest.1, rfl, rfl, rfl, .refl s,
      fun foreign => ?_, fun own fresh room => ?_, fun own fresh full => ?_, fun own listed => ?_⟩
    · rw [takeAnswer_foreign running foreign]
      rfl
    · rw [takeAnswer_lists running own fresh room]
      rfl
    · rw [takeAnswer_overflows running own fresh full]
      rfl
    · rw [takeAnswer_conflicts running own listed]
      rfl
  case judges =>
    intro m tag deadline s₀ s hs running passed
    obtain ⟨t, run, told, counted⟩ := execCensusWindowExpiry_judges hs running passed
    have only := (judged_only s).trans told.toCaptionsOnly
    have tools : t.tools = judgedTools s := told.tool.trans (judged_tools s)
    refine ⟨t, run, ?_⟩
    rw [tools, told.channels]
    exact ⟨rfl, rfl, rfl, censusVerdict_fail_iff.trans censusFails_iff, censusVerdict_ne_none s, judged_channel running,
      only.outside, only.score, ⟨only.staging, only.firing⟩, only.placements, only.stores, only.control,
      counted.trans (judged_counters s), only.requests⟩
  case reads =>
    intro m h s₀ s hs
    obtain ⟨t, run, answered, blocks, rest, notices⟩ := request_answeredOnly h .readCensus .ok (censusData s.tools) hs
      (requestPayload_fits rfl _ _) (doReadCensus_eq (inHand h .readCensus s))
    refine ⟨t, run, ?_, blocks, rest, notices⟩
    simp only [censusData, censusRuns, yes_eq] at answered
    cases running : s.tools.running with
    | none => simpa only [running, if_true, if_false, Bool.false_eq_true] using answered
    | census => simpa only [running, if_true, if_false, Bool.false_eq_true] using answered
    | test => simpa only [running, if_true, if_false, Bool.false_eq_true] using answered

end Sys2Proof.Proofs
end

section
/-! Requests spelled and read back (R164, R184, R185): numbers and configuration pairs in a payload, and each request from
its own code and parameters. -/

namespace Sys2Proof.Machine

/-! ### Numbers of a few bytes (R4) -/

theorem foldl_be (k v : Nat) : ∀ a : Nat,
    (be k v).foldl (fun a (b : Byte) => a * 256 + b.toNat) a = a * 256 ^ k + v % 256 ^ k := by
  induction k with
  | zero => intro a; rw [be, List.foldl_nil, Nat.pow_zero, Nat.mul_one, Nat.mod_one, Nat.add_zero]
  | succ k ih =>
    intro a
    have digit : v % 256 ^ (k + 1) = v % 256 ^ k + 256 ^ k * (v / 256 ^ k % 256) := by rw [Nat.pow_succ, Nat.mod_mul]
    rw [be, List.foldl_cons, ih, BitVec.toNat_ofNat, digit]
    ring

/-- The bytes of a number spell it up to the digits they leave out. -/
theorem ofBe_be (k v : Nat) : ofBe (be k v) = v % 256 ^ k := by
  rw [ofBe, foldl_be, Nat.zero_mul, Nat.zero_add]

/-- A word spelled in bytes enough for it reads back as itself. -/
theorem ofNat_ofBe_be {w : Nat} (k : Nat) (x : BitVec w) (wide : 2 ^ w ≤ 256 ^ k) :
    BitVec.ofNat w (ofBe (be k x.toNat)) = x := by
  rw [ofBe_be, Nat.mod_eq_of_lt (Nat.lt_of_lt_of_le x.isLt wide), BitVec.ofNat_toNat, BitVec.setWidth_eq]

theorem ofNat_ofBe_be2 (x : BitVec 16) : BitVec.ofNat 16 (ofBe (be 2 x.toNat)) = x := ofNat_ofBe_be 2 x (by decide)

theorem ofNat_ofBe_be4 (x : BitVec 32) : BitVec.ofNat 32 (ofBe (be 4 x.toNat)) = x := ofNat_ofBe_be 4 x (by decide)

/-! ### Configuration pairs (R167, R185) -/

/-- The bytes of a pair: its item number, then its value (R185). -/
def pairBytes (p : ConfigPair) : List Byte := be 2 p.item.toNat ++ p.value

theorem requestParameters_setConfig (pairs : List ConfigPair) :
    requestParameters (.setConfig pairs) = (pairs.map pairBytes).flatten := rfl

/-- A pair of its item's size names an item, and its value is that item's bytes. -/
theorem pairSized_iff {p : ConfigPair} :
    pairSized p = true ↔ ∃ item, itemOf p.item = some item ∧ p.value.length = item.size := by
  unfold pairSized
  cases named : itemOf p.item with
  | none => simp
  | some item => simp

/-- An item number and bytes enough for its item's value are a pair's (R164, R167). -/
theorem pairsOf_of_item {number : BitVec 16} {item : ConfigItem} {rest : List Byte} (named : itemOf number = some item)
    (enough : item.size ≤ rest.length) (fuel : Nat) :
    pairsOf (fuel + 1) (be 2 number.toNat ++ rest) = (pairsOf fuel (rest.drop item.size)).map
      ({ item := number, value := rest.take item.size } :: ·) := by
  have spelled := ofNat_ofBe_be2 number
  simp only [be, List.cons_append, List.nil_append] at spelled ⊢
  rw [pairsOf, spelled, named]
  exact if_neg (Nat.not_lt.2 enough)

/-- A pair of its item's size is read off the front of the bytes. -/
theorem pairsOf_pairBytes {p : ConfigPair} (sized : pairSized p = true) (fuel : Nat) (rest : List Byte) :
    pairsOf (fuel + 1) (pairBytes p ++ rest) = (pairsOf fuel rest).map (p :: ·) := by
  obtain ⟨item, named, whole⟩ := pairSized_iff.1 sized
  have enough : item.size ≤ (p.value ++ rest).length := by rw [List.length_append, whole]; omega
  rw [pairBytes, List.append_assoc, pairsOf_of_item named enough, ← whole, List.drop_left, List.take_left]

/-- A list of pairs of their items' sizes reads back from its bytes, given fuel for each pair. -/
theorem pairsOf_flatten {pairs : List ConfigPair} (sized : pairs.all pairSized = true) {fuel : Nat}
    (enough : pairs.length ≤ fuel) : pairsOf fuel (pairs.map pairBytes).flatten = some pairs := by
  induction pairs generalizing fuel with
  | nil => cases fuel <;> rfl
  | cons p rest ih =>
    obtain ⟨this, others⟩ : pairSized p = true ∧ rest.all pairSized = true := by simpa using sized
    obtain ⟨fuel, rfl⟩ : ∃ k, fuel = k + 1 := Nat.exists_eq_add_one.2 (Nat.lt_of_lt_of_le (Nat.succ_pos _) enough)
    rw [List.map_cons, List.flatten_cons, pairsOf_pairBytes this, ih others (Nat.le_of_succ_le_succ enough),
      Option.map_some]

/-- A list of pairs has at least one byte for each. -/
theorem length_le_flatten_pairBytes (pairs : List ConfigPair) :
    pairs.length ≤ ((pairs.map pairBytes).flatten).length := by
  induction pairs with
  | nil => exact Nat.le_refl 0
  | cons p rest ih =>
    have spelled : 2 ≤ (pairBytes p).length := by rw [pairBytes, List.length_append, be_length]; omega
    rw [List.map_cons, List.flatten_cons, List.length_append, List.length_cons]
    omega

/-! ### Requests (R164, R185) -/

/-- A payload is decoded by its code and its parameters; tag and confirm byte do not enter (R164). -/
theorem decodeRequest_requestPayload (r : Request) (tag confirm : Byte) :
    decodeRequest (requestPayload r tag confirm) = requestOf (requestCode r) (requestParameters r) := rfl

theorem requestOf_setConfig (ps : List Byte) : requestOf 0x05 ps = (pairsOf ps.length ps).map .setConfig := rfl

/-- A request's code and parameters spell it, where the values of a SET_CONFIG have their items' sizes. -/
theorem requestOf_requestParameters {r : Request} (sized : ∀ pairs, r = .setConfig pairs → pairs.all pairSized = true) :
    requestOf (requestCode r) (requestParameters r) = some r := by
  cases r with
  | setConfig pairs =>
    rw [requestParameters_setConfig]
    refine (requestOf_setConfig _).trans ?_
    rw [pairsOf_flatten (sized pairs rfl) (length_le_flatten_pairBytes pairs), Option.map_some]
  | setPointer label =>
    change some (Request.setPointer ⟨BitVec.ofNat 16 (ofBe (be 2 label.number.toNat)), label.suffix⟩) = _
    rw [ofNat_ofBe_be2]
  | showMessage level mask duration text =>
    change some (Request.showMessage level mask (BitVec.ofNat 16 (ofBe (be 2 duration.toNat))) text) = _
    rw [ofNat_ofBe_be2]
  | readStore address length =>
    change some (Request.readStore (BitVec.ofNat 32 (ofBe (be 4 address.toNat))) length) = _
    rw [ofNat_ofBe_be4]
  | programStore address data =>
    change some (Request.programStore (BitVec.ofNat 32 (ofBe (be 4 address.toNat))) data) = _
    rw [ofNat_ofBe_be4]
  | eraseSector sector =>
    change some (Request.eraseSector (BitVec.ofNat 16 (ofBe (be 2 sector.toNat)))) = _
    rw [ofNat_ofBe_be2]
  | checksum address length =>
    change some (Request.checksum (BitVec.ofNat 32 (ofBe (be 4 address.toNat)))
      (BitVec.ofNat 32 (ofBe (be 4 length.toNat)))) = _
    rw [ofNat_ofBe_be4, ofNat_ofBe_be4]
  | screenTest channel count length gap mode =>
    change some (Request.screenTest channel (BitVec.ofNat 16 (ofBe (be 2 count.toNat))) length
      (BitVec.ofNat 16 (ofBe (be 2 gap.toNat))) mode) = _
    rw [ofNat_ofBe_be2, ofNat_ofBe_be2]
  | identify | readStatus | readCounters | readConfig | commitConfig | loadAct | start | hold | resume | stop | unload
  | clearMessage | verifyAct | protectAct | unprotectAct | lockShow | readEcc | clearEcc | census | readCensus | stopTest
  | restart => rfl

theorem requestFits_iff {h : Head} {r : Request} : requestFits h r = true ↔
    (requestPayload r h.tag h.confirm).length ≤ Config.payloadMax ∧
      ∀ pairs, r = .setConfig pairs → pairs.all pairSized = true := by
  unfold requestFits payloadFits
  rw [Bool.and_eq_true, decide_eq_true_eq]
  refine and_congr_right fun _ => ⟨?_, ?_⟩
  · rintro sized pairs rfl
    exact sized
  · intro sized
    cases r with
    | setConfig pairs => exact sized pairs rfl
    | _ => rfl

end Sys2Proof.Machine

namespace Sys2Proof.Proofs

open Sys2Proof.Machine

/-- Settles O8: a payload is decoded by code and parameters, and each request's parameters spell it. -/
theorem requestsDecodeAsEncoded : Obligations.RequestsDecodeAsEncoded := by
  intro h r fits
  obtain ⟨-, sized⟩ := requestFits_iff.1 fits
  exact (decodeRequest_requestPayload r h.tag h.confirm).trans (requestOf_requestParameters sized)

end Sys2Proof.Proofs
end

section
/-! COMMIT_CONFIG, READ_CONFIG and IDENTIFY (R168, R172): what a commit checks, and the answers. -/

namespace Sys2Proof.Machine

/-! ### What a commit checks (R168) -/

section conditions
variable {c : Configuration}

theorem codeless_eq_nil : codeless c = [] ↔
    ∀ n : Fin 8, c.channels[n].enabled = true → c.languages[c.channels[n].language].code ≠ none := by
  rw [codeless, List.filter_eq_nil_iff]
  refine ⟨fun coded n enabled missing => coded n (mem_allChannels n) ?_, fun coded n _ found => ?_⟩
  · rw [enabled, missing]
    rfl
  · obtain ⟨enabled, missing⟩ := Bool.and_eq_true_iff.1 found
    exact coded n enabled (Option.isNone_iff_eq_none.1 missing)

theorem shares_iff {a b : Fin 8} : shares c a b = true ↔
    a < b ∧ c.channels[a].enabled = true ∧ c.channels[b].enabled = true ∧
      c.channels[a].address = c.channels[b].address := by
  simp only [shares, Bool.and_eq_true, decide_eq_true_eq, and_assoc]

theorem mem_sharing {p : Fin 8 × Fin 8} : p ∈ sharing c ↔ shares c p.1 p.2 = true := by
  obtain ⟨a, b⟩ := p
  simp [sharing, mem_allChannels]

/-- No pair is listed exactly when any two enabled channels differ in address, in either order. -/
theorem sharing_eq_nil : sharing c = [] ↔
    ∀ a b : Fin 8, a ≠ b → c.channels[a].enabled = true → c.channels[b].enabled = true →
      c.channels[a].address ≠ c.channels[b].address := by
  rw [List.eq_nil_iff_forall_not_mem]
  refine ⟨fun apart a b differ ea eb same => ?_, fun apart p listed => ?_⟩
  · rcases lt_or_gt_of_ne differ with below | above
    · exact apart (a, b) (mem_sharing.2 (shares_iff.2 ⟨below, ea, eb, same⟩))
    · exact apart (b, a) (mem_sharing.2 (shares_iff.2 ⟨above, eb, ea, same.symm⟩))
  · obtain ⟨below, ea, eb, same⟩ := shares_iff.1 (mem_sharing.1 listed)
    exact apart p.1 p.2 (ne_of_lt below) ea eb same

theorem any_enabled_iff : allChannels.any (fun n => c.channels[n].enabled) = true ↔
    ∃ n : Fin 8, c.channels[n].enabled = true := by
  rw [List.any_eq_true]
  exact exists_congr fun n => and_iff_right (mem_allChannels n)

/-- The failing condition is none exactly when no condition of R168 fails. -/
theorem commitFailure_eq_none : commitFailure c = none ↔
    allChannels.any (fun n => c.channels[n].enabled) = true ∧ codeless c = [] ∧ sharing c = [] := by
  rw [commitFailure]
  split
  · next dark => exact ⟨nofun, fun ⟨enabled, _⟩ => absurd enabled dark⟩
  · next enabled =>
    split
    · next found => simp [found]
    · next coded =>
      split
      · next found => simp [found]
      · next apart => exact iff_of_true rfl ⟨not_not.1 enabled, coded, apart⟩

end conditions

/-! ### The answers (R168) -/

theorem doCommitConfig_accepts {s : State} (consistent : commitFailure s.config = none) :
    doCommitConfig s = .answer (s.withManagement { s.management with valid := true }) .ok [] := by
  rw [doCommitConfig, consistent]

theorem doCommitConfig_fails {s : State} (failing : commitFailure s.config ≠ none) :
    ∃ data, doCommitConfig s = .answer s .range data := by
  obtain ⟨⟨condition, channels⟩, failure⟩ := Option.ne_none_iff_exists'.1 failing
  exact ⟨be 1 condition ++ [channels], by rw [doCommitConfig, failure]⟩

theorem doReadConfig_eq (s : State) : doReadConfig s = .answer s .ok
    ((allItems.map (itemBytes s.config)).flatten ++ [if s.management.valid then 1 else 0]) := rfl

/-- A ready COMMIT_CONFIG that meets the conditions: the answer keeps to port U's width from the state with VALID set. -/
theorem execCommitConfig_accepts {m : Moment} {h : Head} {s₀ s : State} (hs : Ready m s₀ s)
    (consistent : commitFailure s.config = none) :
    ∃ t, exec (.commitConfig m h) s₀ = .next t ∧ Answered t (responseTo h .commitConfig .ok []) ∧
      PortUOnly (s.withManagement { s.management with valid := true }) t ∧ sameNotices s t := by
  let valid := s.withManagement { s.management with valid := true }
  let u := (inHand h .commitConfig s).withManagement { (inHand h .commitConfig s).management with valid := true }
  have reply : replyOf h .commitConfig (inHand h .commitConfig s) = .answer u .ok [] := doCommitConfig_accepts consistent
  obtain ⟨run, answered⟩ := request_answered h .commitConfig _ _ _ hs (requestPayload_fits rfl _ _) reply
  have halves : u.management.halves = [] := hs.halves
  have ended : u.withManagement { u.management with handling := none } = valid := by
    simp only [valid, ← hs.handling]
    rfl
  refine ⟨_, run, answered, ?_⟩
  rw [respond_plain _ _ _ _ halves, ended]
  exact ⟨placeResponse_only _ _, placeResponse_notices _ valid⟩

end Sys2Proof.Machine

namespace Sys2Proof.Proofs

open Sys2Proof.Machine

/-- Settles O51: a commit fails exactly when one of the conditions does, and only a commit that does not touches VALID. -/
theorem commitSetsValid : Obligations.CommitSetsValid := by
  intro m h s₀ s hs consistent
  have checked : commitFailure s.config = none ↔ consistent := by
    rw [commitFailure_eq_none, any_enabled_iff, codeless_eq_nil, sharing_eq_nil]
  refine ⟨fun holds => ?accepted, fun fails => ?refused, ?read⟩
  case accepted =>
    obtain ⟨t, run, answered, only, notices⟩ := execCommitConfig_accepts hs (checked.2 holds)
    obtain ⟨fifo, -, valid⟩ := only.requests
    exact ⟨t, run, answered, valid, fifo, only.outside, only.score, ⟨only.staging, only.firing⟩,
      ⟨only.channels, only.placements⟩, only.stores, only.portD, only.sameRest.2, notices⟩
  case refused =>
    obtain ⟨data, reply⟩ := doCommitConfig_fails (s := inHand h .commitConfig s) fun none => fails (checked.1 none)
    obtain ⟨t, run, answered⟩ := request_answeredOnly h .commitConfig .range data hs (requestPayload_fits rfl _ _) reply
    exact ⟨t, data, run, answered⟩
  case read =>
    exact request_answeredOnly h .readConfig .ok _ hs (requestPayload_fits rfl _ _)
      (doReadConfig_eq (inHand h .readConfig s))

end Sys2Proof.Proofs
end

section
/-! The confirm byte (R165): the four requests that examine it, and the replies of all others. -/

namespace Sys2Proof.Machine

/-! ### Refused for the confirm byte (R165) -/

section refusals
variable {s : State} {tag confirm level mask : Byte} {duration : BitVec 16} {text : List Byte}

theorem doUnload_unconfirmed (unconfirmed : confirm ≠ 0xEA) : doUnload tag confirm s = .answer s .confirm [] :=
  if_pos unconfirmed

theorem doShowMessage_unconfirmed (unconfirmed : confirm ≠ 0xDF) :
    doShowMessage tag confirm 3 mask duration text s = .answer s .confirm [] := if_pos ⟨rfl, unconfirmed⟩

theorem doClearMessage_unconfirmed (unconfirmed : confirm ≠ 0xDE) :
    doClearMessage confirm 3 mask s = .answer s .confirm [] := if_pos ⟨rfl, unconfirmed⟩

theorem doShowMessage_noLevel (unnamed : levelOf level = none) :
    doShowMessage tag confirm level mask duration text s = .answer s .range [] := by
  rw [doShowMessage, unnamed]
  rfl

theorem doClearMessage_noLevel (unnamed : levelOf level = none) :
    doClearMessage confirm level mask s = .answer s .range [] := by
  rw [doClearMessage, unnamed]
  rfl

end refusals

/-! ### Answered whatever the confirm byte (R165) -/

theorem levelOf_eq_alert {level : Byte} (alert : levelOf level = some .alert) : level = 3 := by
  unfold levelOf at alert
  split at alert
  · cases alert
  · split at alert
    · cases alert
    · split at alert
      · next three => exact three
      · cases alert

section elsewhere
variable {s : State} {level mask : Byte} (lower : level ≠ 3)
include lower

theorem doShowMessage_confirm (tag : Byte) (confirm other : Byte) (duration : BitVec 16) (text : List Byte) :
    doShowMessage tag confirm level mask duration text s = doShowMessage tag other level mask duration text s := by
  cases named : levelOf level with
  | none => rw [doShowMessage_noLevel named, doShowMessage_noLevel named]
  | some l =>
    have notAlert : l ≠ .alert := fun alert => lower (levelOf_eq_alert (alert ▸ named))
    simp only [doShowMessage, named, notAlert, false_and, if_false]

theorem doClearMessage_confirm (confirm other : Byte) :
    doClearMessage confirm level mask s = doClearMessage other level mask s := by
  cases named : levelOf level with
  | none => rw [doClearMessage_noLevel named, doClearMessage_noLevel named]
  | some l =>
    have notAlert : l ≠ .alert := fun alert => lower (levelOf_eq_alert (alert ▸ named))
    simp only [doClearMessage, named, notAlert, false_and, if_false]

end elsewhere

/-- Of the owners only those of the four requests look at the confirm byte. -/
theorem replyOf_confirm (h : Head) (confirm : Byte) {r : Request} (s : State) (notRestart : r ≠ .restart)
    (notUnload : r ≠ .unload) (notShow : ∀ mask duration text, r ≠ .showMessage 3 mask duration text)
    (notClear : ∀ mask, r ≠ .clearMessage 3 mask) : replyOf h r s = replyOf { h with confirm := confirm } r s := by
  cases r with
  | restart => exact absurd rfl notRestart
  | unload => exact absurd rfl notUnload
  | showMessage level mask duration text =>
    exact doShowMessage_confirm (fun three => notShow mask duration text (three ▸ rfl)) _ _ _ _ _
  | clearMessage level mask => exact doClearMessage_confirm (fun three => notClear mask (three ▸ rfl)) _ _
  | identify | readStatus | readCounters | readConfig | setConfig | commitConfig | loadAct | start | hold | resume | stop
  | setPointer | readStore | programStore | eraseSector | verifyAct | checksum | protectAct | unprotectAct | lockShow
  | readEcc | clearEcc | census | readCensus | screenTest | stopTest => rfl

end Sys2Proof.Machine

namespace Sys2Proof.Proofs

open Sys2Proof.Machine

/-- Settles O60: each of the four owners refuses a wrong confirm byte before it changes anything, a level that is none
before that, and the other owners are not given the byte. -/
theorem confirmByteGuardsFourRequests : Obligations.ConfirmByteGuardsFourRequests := by
  refine ⟨fun m h s₀ s hs => ?_, fun h confirm r s => replyOf_confirm h confirm s⟩
  refine ⟨fun wrong => ?restart, fun wrong => ?unload, fun mask duration text wrong fits => ?showing,
    fun mask wrong => ?clearing, fun level mask duration text unnamed fits => ?showsNone,
    fun level mask unnamed => ?clearsNone⟩
  case restart =>
    exact request_answeredOnly h .restart _ _ hs (requestPayload_fits rfl _ _) (doRestart_refuses wrong)
  case unload =>
    exact request_answeredOnly h .unload _ _ hs (requestPayload_fits rfl _ _) (doUnload_unconfirmed wrong)
  case showing =>
    obtain ⟨short, -⟩ := requestFits_iff.1 fits
    exact request_answeredOnly h _ _ _ hs short (doShowMessage_unconfirmed wrong)
  case clearing =>
    exact request_answeredOnly h (.clearMessage 3 mask) _ _ hs (by decide : 5 ≤ 240) (doClearMessage_unconfirmed wrong)
  case showsNone =>
    obtain ⟨short, -⟩ := requestFits_iff.1 fits
    exact request_answeredOnly h _ _ _ hs short (doShowMessage_noLevel unnamed)
  case clearsNone =>
    exact request_answeredOnly h (.clearMessage level mask) _ _ hs (by decide : 5 ≤ 240) (doClearMessage_noLevel unnamed)

end Sys2Proof.Proofs
end

section
/-! IDENTIFY (R172): its codes as the bytes of the answer. -/

namespace Sys2Proof.Machine

theorem doIdentify_eq (s : State) : doIdentify s = .answer s .ok ([0x57, 0x54, 0x5C, 0x26] ++ [Config.revision] ++
    be 8 Config.uniqueNumber.toNat ++ be 4 2097152 ++ [s.link.address]) := rfl

end Sys2Proof.Machine

namespace Sys2Proof.Proofs

open Sys2Proof.Machine

/-- Settles O54: the owner answers with the part's codes whatever show and store are doing. -/
theorem identifyAnswers : Obligations.IdentifyAnswers := by
  intro m h s₀ s hs
  exact request_answeredOnly h .identify .ok _ hs (requestPayload_fits rfl _ _) (doIdentify_eq (inHand h .identify s))

end Sys2Proof.Proofs
end

section
/-! The screen test (R155, R173, R178 to R180): its start, the times its frames set, the echoes it counts and its ends. -/

namespace Sys2Proof.Machine

/-- What keeps to a caption's width and counts nothing leaves alone what a test does. -/
theorem CaptionsOnly.testBeside {s t : State} (h : CaptionsOnly s t) (counters : t.counters = s.counters) :
    TestBeside s t :=
  ⟨h.outside, h.score, ⟨h.staging, h.firing⟩, h.placements, h.stores, h.control, counters, h.requests⟩

/-- Answering a request changes no tool. -/
theorem respond_tools (g : Handling) (result : Result) (data : List Byte) (s : State) :
    (respond g result data s).tools = s.tools := by
  obtain ⟨_, counted, placed⟩ := respond_only g result data s
  exact placed.tool.trans counted.tool

/-- What a request left alone that found none in hand is left alone once it is answered. -/
theorem TestBeside.answered {s u : State} {g : Handling} (h : TestBeside (takeInHand g s) u)
    (free : s.management.handling = none) (result : Result) (data : List Byte) :
    TestBeside s (respond g result data u) := by
  obtain ⟨outside, score, ⟨staging, firing⟩, placements, store, control, counters, fifo, -, valid⟩ := h
  obtain ⟨v, counted, placed⟩ := respond_only g result data u
  obtain ⟨sameFiring, sameStaging, -, sameCounters⟩ := respond_beside g result data u
  obtain ⟨tracker, table⟩ := counted.score
  obtain ⟨fifoKept, -, validKept⟩ := counted.requests
  obtain ⟨fifoLast, ended, validLast⟩ := placed.requests
  exact ⟨(outside.trans counted.outside).trans placed.outside,
    ⟨placed.score.1.trans (tracker.trans score.1), placed.score.2.trans (table.trans score.2)⟩,
    ⟨sameStaging.trans staging, sameFiring.trans firing⟩, placed.placements.trans (counted.placements.trans placements),
    placed.stores.trans (counted.stores.trans store), placed.control.trans (counted.control.trans control),
    sameCounters.trans counters, fifoLast.trans (fifoKept.trans fifo), ended.trans free.symm,
    validLast.trans (validKept.trans valid)⟩

/-! ### What port D's choice makes of the tools (R156, R178) -/

section choice
variable {r : TestRecord} {s : State}

/-- Port D makes no choice, or serves one source. -/
theorem chooseD_cases (s : State) : chooseD s = s ∨ ∃ source, serveD source s = some (chooseD s) := by
  unfold chooseD
  split
  · exact .inl rfl
  · cases chosen : (circularFrom s.link.dNext).findSome? (fun source => serveD source s) with
    | none => exact .inl rfl
    | some t =>
      obtain ⟨source, -, served⟩ := List.exists_of_findSome?_eq_some chosen
      exact .inr ⟨source, served⟩

/-- With an empty tool slot the tools are as before. -/
theorem chooseD_toolless (free : s.link.tool = none) : (chooseD s).tools = s.tools := by
  rcases chooseD_cases s with idle | ⟨source, served⟩
  · rw [idle]
  cases source with
  | captions =>
    obtain ⟨_, -, sent⟩ := Option.map_eq_some_iff.1 served
    rw [← sent]
    rfl
  | tools =>
    rw [serveD_tools_empty free] at served
    cases served
  | downFifo =>
    rw [serveD] at served
    split at served
    · cases served
    · rw [← Option.some.inj served]
      rfl

/-- In t the running test has sent at most one frame more than in s, and all else of the tools is as before. -/
def SendsAtMostOne (r : TestRecord) (s t : State) : Prop :=
  ∃ k ≤ 1, t.tools = { s.tools with running := .test { r with sent := r.sent + k } }

theorem SendsAtMostOne.of_tools {t : State} (running : s.tools.running = .test r) (same : t.tools = s.tools) :
    SendsAtMostOne r s t :=
  ⟨0, Nat.zero_le _, by rw [same, Nat.add_zero, ← running]⟩

theorem countSent_sendsAtMostOne (running : s.tools.running = .test r) (t : ToolFrame) :
    SendsAtMostOne r s (countSent t s) := by
  unfold countSent
  split
  · next r' running' =>
    obtain rfl : r' = r := Tool.test.inj (running'.symm.trans running)
    exact ⟨1, Nat.le_refl _, rfl⟩
  · exact .of_tools running rfl

theorem chooseD_sendsAtMostOne (running : s.tools.running = .test r) : SendsAtMostOne r s (chooseD s) := by
  rcases chooseD_cases s with idle | ⟨source, served⟩
  · exact .of_tools running (by rw [idle])
  cases source with
  | captions =>
    obtain ⟨_, -, sent⟩ := Option.map_eq_some_iff.1 served
    exact .of_tools running (by rw [← sent]; rfl)
  | tools =>
    obtain ⟨t, -, sent⟩ := Option.map_eq_some_iff.1 served
    have counted : ∀ l, SendsAtMostOne r s (countSent t (s.withLink l)) := fun l =>
      countSent_sendsAtMostOne (s := s.withLink l) running t
    rw [← sent]
    exact counted _
  | downFifo =>
    rw [serveD] at served
    split at served
    · cases served
    · exact .of_tools running (by rw [← Option.some.inj served]; rfl)

theorem offerTool_sendsAtMostOne (running : s.tools.running = .test r) (t : ToolFrame) :
    SendsAtMostOne r s (offerTool t s) := by
  unfold offerTool
  split
  · exact chooseD_sendsAtMostOne (s := s.withLink _) running
  · exact .of_tools running rfl

end choice

/-! ### The start (R173, R178) -/

section start
variable {tag channel length mode : Byte} {count gap : BitVec 16} {n : Fin 8} {s : State}

/-- The record of a test as it begins. -/
def begunRecord (tag : Byte) (n : Fin 8) (count : BitVec 16) (length : Byte) (gap : BitVec 16) (mode : Byte) :
    TestRecord :=
  { tag, channel := n, count := count.toNat, length := length.toNat, gap := gap.toNat,
    mode := if mode = 0 then .single else .continuous, sent := 0, expected := 0, good := 0, bad := 0, missed := 0,
    errors := 0, gapDeadline := none, endDeadline := none }

theorem begunRecord_mode (tag : Byte) (n : Fin 8) (count : BitVec 16) (length : Byte) (gap : BitVec 16) (mode : Byte) :
    (begunRecord tag n count length gap mode).mode = .single ↔ mode = 0 := by
  unfold begunRecord
  dsimp only
  split
  · next zero => exact iff_of_true rfl zero
  · next other => exact iff_of_false nofun other

/-- The test begun and its frame 0 offered. -/
def testBegun (r : TestRecord) (s : State) : State := offerTool (.test r.channel 0 r.length true) (withTest r s)

theorem doScreenTest_accepts (address : channel.toNat = n.val) (enabled : s.config.channels[n].enabled = true)
    (lengthLow : 1 ≤ length.toNat) (lengthHigh : length.toNat ≤ 200) (gapLow : 1 ≤ gap.toNat)
    (gapHigh : gap.toNat ≤ 1000) (modeOk : mode = 0 ∨ mode = 1)
    (show_ : s.control.show_ = .dark ∨ s.control.show_ = .preset) (idle : s.tools.running = .none) :
    doScreenTest tag channel count length gap mode s =
      .answer (testBegun (begunRecord tag n count length gap mode) s) .accepted [] := by
  have inside : channel.toNat < 8 := by rw [address]; exact n.isLt
  obtain rfl : n = ⟨channel.toNat, inside⟩ := Fin.ext address.symm
  have eligible : ¬ (s.control.show_ ≠ .dark ∧ s.control.show_ ≠ .preset) := fun ⟨notDark, notPreset⟩ =>
    show_.elim notDark notPreset
  have free : ¬ toolRuns s = true := by simp [toolRuns, idle]
  rw [doScreenTest, dif_pos inside]
  dsimp only
  rw [if_pos ⟨enabled, lengthLow, lengthHigh, gapLow, gapHigh, modeOk⟩, if_neg eligible, if_neg free]
  rfl

theorem testBegun_only (r : TestRecord) (s : State) : PortDOnly (withTest r s) (testBegun r s) := offerTool_only _ _

end start

/-! ### The times its frames set (R178, R180) -/

section times
variable {r : TestRecord} {d : Time} {s : State}

theorem isDue_of_due {deadline : Option Time} {now : Time} (armed : deadline = some d) (passed : due d now = true) :
    isDue deadline now = true := by
  rw [armed]
  exact passed

/-- At the passed gap the frame numbered by those sent waits in the tool slot, behind a frame in transmission. -/
theorem testGapExpired_waits (running : s.tools.running = .test r) (passed : isDue r.gapDeadline s.clock = true)
    (free : s.link.tool = none) (busy : s.link.sendingD.isSome = true) :
    testGapExpired s = (withTest { r with gapDeadline := none } s).withLink
      { s.link with tool := some (.test r.channel r.sent r.length true) } := by
  rw [testGapExpired, running]
  dsimp only
  rw [if_pos passed]
  exact offerTool_waits (s := withTest { r with gapDeadline := none } s) free busy

theorem testFrameSent_gap (running : s.tools.running = .test r) (more : r.count = 0 ∨ r.sent < r.count) :
    testFrameSent s = withTest { r with gapDeadline := some (later s.clock (1000 * r.gap)) } s := by
  have goesOn : ¬ (r.count ≠ 0 ∧ r.count ≤ r.sent) := by omega
  rw [testFrameSent, running]
  exact if_neg goesOn

theorem testFrameSent_last (running : s.tools.running = .test r) (limited : r.count ≠ 0) (all : r.count ≤ r.sent) :
    testFrameSent s = withTest { r with endDeadline := some (later s.clock 100000) } s := by
  rw [testFrameSent, running]
  exact if_pos ⟨limited, all⟩

/-- After a running test's frame, with no other in the slot, the tools are as the test's telling left them. -/
theorem dSent_tools {f : Frame} {n : Fin 8} {k len : Nat} (free : s.link.tool = none)
    (sending : s.link.sendingD = some ⟨f, some (.test n k len true)⟩) : (dSent s).tools = (testFrameSent s).tools := by
  rw [dSent_of_sending sending]
  exact chooseD_toolless free

end times

/-! ### Echoes (R179) -/

section echoes
variable {r : TestRecord} {payload : List Byte} {q : Nat} {s : State}

/-- A test's error count with k more errors: SINGLE saturates, CONTINUOUS wraps. -/
def errorsWith (r : TestRecord) (k : Nat) : Nat :=
  if r.mode = .single then min (r.errors + k) 255 else (r.errors + k) % 256

/-- Errors added leave the record with its new error count, and tell of passages on port U. -/
theorem addErrors_only (r : TestRecord) (k : Nat) (s : State) :
    PortUOnly (withTest { r with errors := errorsWith r k } s) (addErrors k (withTest r s)) := by
  unfold addErrors errorsWith
  dsimp only [withTest, withTools_tools]
  cases r.mode with
  | single => exact .refl _
  | continuous => exact foldl_keeps PortUOnly .refl (fun _ _ _ => .trans) _ (fun t _ => notify_only _ t) _ _

theorem alreadySent_iff : alreadySent r q = true ↔ q < r.sent ∨ 65536 ≤ r.sent := by
  rw [alreadySent, Bool.or_eq_true, decide_eq_true_eq, decide_eq_true_eq]

/-- How many frames an echo of sequence number q lies past the one expected. -/
def skippedBy (r : TestRecord) (q : Nat) : Nat := (q + 65536 - r.expected) % 65536

/-- A late or repeated echo is disregarded. -/
theorem takeEcho_late (running : s.tools.running = .test r) (number : fieldNat payload 0 2 = q)
    (late : 32768 ≤ skippedBy r q) : takeEcho payload s = s := by
  subst number
  rw [takeEcho, running]
  exact if_pos late

/-- An echo of a frame not yet sent counts BAD and one error. -/
theorem takeEcho_unsent (running : s.tools.running = .test r) (number : fieldNat payload 0 2 = q)
    (fresh : skippedBy r q < 32768) (unsent : ¬ (q < r.sent ∨ 65536 ≤ r.sent)) :
    takeEcho payload s = addErrors 1 (withTest { r with bad := total r.bad 1 } s) := by
  subst number
  rw [takeEcho, running]
  exact (if_neg (Nat.not_le.2 fresh)).trans (if_pos (mt alreadySent_iff.1 unsent))

/-- An echo of a frame sent counts the frames it skips, and itself by whether it is intact. -/
theorem takeEcho_sent (running : s.tools.running = .test r) (number : fieldNat payload 0 2 = q)
    (fresh : skippedBy r q < 32768) (sent : q < r.sent ∨ 65536 ≤ r.sent) :
    takeEcho payload s =
      let intact := decide (payload.drop 2 = testBytes q r.length)
      addErrors (skippedBy r q + (if intact then 0 else 1)) (withTest { r with
        missed := total r.missed (skippedBy r q)
        good := if intact then total r.good 1 else r.good
        bad := if intact then r.bad else total r.bad 1
        expected := (q + 1) % 65536 } s) := by
  subst number
  rw [takeEcho, running]
  exact (if_neg (Nat.not_le.2 fresh)).trans (if_neg (not_not.2 (alreadySent_iff.2 sent)))

theorem takeEcho_intact (running : s.tools.running = .test r) (number : fieldNat payload 0 2 = q)
    (fresh : skippedBy r q < 32768) (sent : q < r.sent ∨ 65536 ≤ r.sent)
    (intact : payload.drop 2 = testBytes q r.length) :
    takeEcho payload s = addErrors (skippedBy r q) (withTest { r with
      missed := total r.missed (skippedBy r q), good := total r.good 1, expected := (q + 1) % 65536 } s) := by
  rw [takeEcho_sent running number fresh sent, decide_eq_true intact]
  rfl

theorem takeEcho_damaged (running : s.tools.running = .test r) (number : fieldNat payload 0 2 = q)
    (fresh : skippedBy r q < 32768) (sent : q < r.sent ∨ 65536 ≤ r.sent)
    (damaged : payload.drop 2 ≠ testBytes q r.length) :
    takeEcho payload s = addErrors (skippedBy r q + 1) (withTest { r with
      missed := total r.missed (skippedBy r q), bad := total r.bad 1, expected := (q + 1) % 65536 } s) := by
  rw [takeEcho_sent running number fresh sent, decide_eq_false damaged]
  rfl

/-- Whatever its case, an echo replaces the record, and tells of passages on port U. -/
theorem takeEcho_only (running : s.tools.running = .test r) (payload : List Byte) :
    ∃ after, PortUOnly (withTest after s) (takeEcho payload s) := by
  by_cases fresh : skippedBy r (fieldNat payload 0 2) < 32768
  · by_cases sent : fieldNat payload 0 2 < r.sent ∨ 65536 ≤ r.sent
    · rw [takeEcho_sent running rfl fresh sent]
      exact ⟨_, addErrors_only _ _ s⟩
    · rw [takeEcho_unsent running rfl fresh sent]
      exact ⟨_, addErrors_only _ _ s⟩
  · rw [takeEcho_late running rfl (Nat.not_lt.1 fresh)]
    refine ⟨r, ?_⟩
    rw [withTest, ← running]
    exact .refl s

/-- A TEST frame to the engine reaches the checker. -/
theorem dispatchD_test_own {source seq : Byte} (fits : payloadFits payload = true) :
    dispatchD ⟨s.link.address, source, kindTest, seq, payload⟩ s = takeEcho payload s := by
  have short : ¬ Config.payloadMax < payload.length := Nat.not_lt.2 (of_decide_eq_true fits)
  rw [dispatchD, if_neg short, if_pos rfl, if_neg (show kindTest ≠ kindAnswer by decide), if_pos rfl]

/-- A TEST frame to the engine as a command. -/
theorem execTestEcho_awake {m : Moment} {s₀ : State} {source seq : Byte} (hs : Awake m s₀ s)
    (running : s.tools.running = .test r) (fits : payloadFits payload = true) :
    exec (.testEcho m s.link.address source seq payload) s₀ = .next (takeEcho payload s) := by
  obtain ⟨after, only⟩ := takeEcho_only running payload
  rw [← dispatchD_test_own (source := source) (seq := seq) fits]
  refine during_plain _ hs ?_
  rw [dispatchD_test_own fits, only.halves]
  exact hs.halves

end echoes

/-! ### The ends (R94, R180) -/

section ends
variable {r : TestRecord} {cause : DoneResult} {s : State}

/-- The OP_DONE of a test. -/
def testNotice (r : TestRecord) (cause : DoneResult) : Notice :=
  .opDone .test r.tag cause
    (be 1 r.channel ++ be 4 r.sent ++ be 4 r.good ++ be 4 r.bad ++ be 4 r.missed ++ be 1 r.errors)

/-- The test discarded and its OP_DONE offered. -/
def endTold (r : TestRecord) (cause : DoneResult) (s : State) : State :=
  notify (testNotice r cause) (leaveTool (s.withTools { s.tools with running := .none }))

/-- A test's end tells of it, and may then write the channel's caption. -/
theorem endTest_cases (r : TestRecord) (cause : DoneResult) (s : State) :
    endTest r cause s = endTold r cause s ∨ endTest r cause s = writeCaption r.channel (endTold r cause s) := by
  unfold endTest
  dsimp only
  split
  · exact .inl rfl
  · exact .inr rfl

theorem writeCaption_counters (n : Fin 8) (s : State) : (writeCaption n s).counters = s.counters :=
  (putCaption_only _ _).counters

theorem writeCaption_management (n : Fin 8) (s : State) : (writeCaption n s).management = s.management :=
  (putCaption_only _ _).management

theorem endTold_counters (r : TestRecord) (cause : DoneResult) (s : State) :
    (endTold r cause s).counters = s.counters := (notify_only _ _).counters

theorem endTest_counters (r : TestRecord) (cause : DoneResult) (s : State) :
    (endTest r cause s).counters = s.counters := by
  rcases endTest_cases r cause s with told | written
  · rw [told, endTold_counters]
  · rw [written, writeCaption_counters, endTold_counters]

/-- Of the management block a test's end changes what its notice does. -/
theorem endTest_management (r : TestRecord) (cause : DoneResult) (s : State) :
    (endTest r cause s).management = (endTold r cause s).management := by
  rcases endTest_cases r cause s with told | written
  · rw [told]
  · rw [written, writeCaption_management]

theorem endTest_halves (r : TestRecord) (cause : DoneResult) (s : State) :
    (endTest r cause s).management.halves = s.management.halves := by
  rw [endTest_management]
  exact (notify_only _ _).halves

/-- A test's end has its OP_DONE admitted where it finds a place. -/
theorem endTest_admitted (room : roomFor s .opDone) : Admitted s (endTest r cause s) (testNotice r cause) := by
  have told : Admitted s (endTold r cause s) (testNotice r cause) :=
    notify_admitted (testNotice r cause) (leaveTool (s.withTools { s.tools with running := .none })) room
  exact told.mono (by rw [endTest_management])

theorem testCompleted_of_due (running : s.tools.running = .test r) (passed : isDue r.endDeadline s.clock = true) :
    testCompleted s = endTest r .complete s := by
  rw [testCompleted, running]
  exact if_pos passed

theorem doStopTest_of_running (running : s.tools.running = .test r) :
    doStopTest s = .answer (endTest r .stopped s) .ok [1] := by
  rw [doStopTest, running]
  rfl

end ends

end Sys2Proof.Machine

namespace Sys2Proof.Proofs

open Sys2Proof.Machine

/-- Settles O56: port D's one choice sends at most frame 0 at the start; each kind of echo by its `takeEcho_*`; both ends
by what `endTest` leaves; an empty tool slot keeps the deadline that a frame's end arms. -/
theorem screenTestSendsCountsAndEnds : Obligations.ScreenTestSendsCountsAndEnds := by
  refine ⟨?begins, ?gap, ?echo, ?completes, ?stops, ?sent⟩
  case begins =>
    intro m h channel n count length gap mode s₀ s hs address enabled lengthLow lengthHigh gapLow gapHigh modeOk show_ idle
    let r := begunRecord h.tag n count length gap mode
    let request := Request.screenTest channel count length gap mode
    let s₁ := inHand h request s
    have short : (requestParameters request).length ≤ 237 := (by decide : 7 ≤ 237)
    have reply := doScreenTest_accepts (tag := h.tag) (count := count) (s := s₁) address enabled lengthLow lengthHigh
      gapLow gapHigh modeOk show_ idle
    obtain ⟨run, answered⟩ := request_answered h request _ _ _ hs (payload_fits_of_le short _ _) reply
    have begun := testBegun_only r s₁
    obtain ⟨k, atMost, tools⟩ := offerTool_sendsAtMostOne (s := withTest r s₁) rfl (.test n 0 r.length true)
    obtain ⟨-, -, channels, -⟩ := respond_beside (handlingOf h (requestCode request)) .accepted [] (testBegun r s₁)
    have beside : TestBeside s₁ (testBegun r s₁) := begun.toCaptionsOnly.testBeside begun.counters
    exact ⟨_, { r with sent := r.sent + k }, run, answered, (respond_tools _ _ _ _).trans tools, rfl, rfl, rfl, rfl, rfl,
      begunRecord_mode h.tag n count length gap mode, (Nat.zero_add k).trans_le atMost, rfl, rfl, rfl, rfl, rfl,
      beside.answered hs.handling _ _, channels.trans begun.channels⟩
  case gap =>
    intro m r d s₀ s hs running armed passed free busy
    have waits := testGapExpired_waits running (isDue_of_due armed passed) free busy
    refine ⟨_, during_plain testGapExpired hs ?_, ?_⟩
    · rw [waits]
      exact hs.halves
    · rw [waits]
      exact ⟨rfl, rfl, (CaptionsOnly.refl s).testBeside rfl, rfl⟩
  case echo =>
    intro m source seq payload r s₀ s hs fits running
    dsimp only
    obtain ⟨after, only⟩ := takeEcho_only running payload
    refine ⟨_, execTestEcho_awake hs running fits, only.toCaptionsOnly.testBeside only.counters, only.channels,
      fun late => ?_, fun fresh unsent => ?_, fun fresh sent intact => ?_, fun fresh sent damaged => ?_⟩
    · rw [takeEcho_late running rfl late]
      exact ⟨rfl, rfl, rfl, rfl⟩
    · rw [takeEcho_unsent running rfl fresh unsent]
      exact (addErrors_only _ _ s).tool
    · rw [takeEcho_intact running rfl fresh sent intact]
      exact (addErrors_only _ _ s).tool
    · rw [takeEcho_damaged running rfl fresh sent damaged]
      exact (addErrors_only _ _ s).tool
  case completes =>
    intro m r d s₀ s hs running armed passed
    have ends := testCompleted_of_due running (isDue_of_due armed passed)
    have only := endTest_only r .complete s
    refine ⟨_, during_plain testCompleted hs ?_, ?_⟩
    · rw [ends, endTest_halves]
      exact hs.halves
    · rw [ends]
      exact ⟨only.tools nofun, only.testBeside (endTest_counters r _ s), endTest_admitted⟩
  case stops =>
    intro m h r s₀ s hs running
    let s₁ := inHand h .stopTest s
    obtain ⟨run, answered⟩ := request_answered h .stopTest _ _ _ hs (requestPayload_fits rfl _ _)
      (doStopTest_of_running (s := s₁) running)
    have only := endTest_only r .stopped s₁
    have beside : TestBeside s₁ (endTest r .stopped s₁) := only.testBeside (endTest_counters r _ s₁)
    exact ⟨_, run, answered, (respond_tools _ _ _ _).trans (only.tools nofun), beside.answered hs.handling _ _⟩
  case sent =>
    intro m f n k len r s₀ s hs sending running free
    have only := chooseD_only (freedD (some (.test n k len true)) s)
    rw [← dSent_of_sending sending] at only
    refine ⟨_, during_plain dSent hs ?_, only.toCaptionsOnly.testBeside only.counters, only.channels,
      fun more => ?_, fun limited all => ?_⟩
    · rw [only.management]
      exact hs.halves
    · rw [dSent_tools free sending, testFrameSent_gap running more]
      rfl
    · rw [dSent_tools free sending, testFrameSent_last running limited all]
      rfl

end Sys2Proof.Proofs
end

section
/-! The step with a command in the queue: the branch of `step` that takes the front command (log 1). -/

namespace Sys2Proof.Machine

theorem step_of_pending_cons {s : State} {c : Instr} {rest : List Instr} (hfront : s.pending = c :: rest) :
    step s = exec c (s.withPending rest) := by
  rw [step, hfront]

end Sys2Proof.Machine

namespace Sys2Proof.Proofs

open Sys2Proof.Machine

/-- Settles O1: a nonempty queue takes the branch of `step` that executes its front command. -/
theorem stepRunsTheFrontCommand : Obligations.StepRunsTheFrontCommand := by
  intro c rest s hfront
  exact step_of_pending_cons hfront

end Sys2Proof.Proofs
end
